-- ==== Sys2Proof/Word.lean ====
section
/-! DEFINITION. The word types of the pwm16 block and their names. -/

namespace Sys2Proof

/-- A 32-bit word of the host bus: the value of a register or a command word (R8, R100). -/
abbrev Word := BitVec 32

/-- A byte: half of an encoded duty, or an auxiliary compare value (R7). -/
abbrev Byte := BitVec 8

/-- A 16-bit duty code, 0x0000 (fully off) to 0xFFFF (fully on) (R7, R143). -/
abbrev Code := BitVec 16

/-- A byte offset of the host register space, 0x00 to 0xFF (R100). -/
abbrev Offset := BitVec 8

end Sys2Proof
end

