-- ==== Sys2Proof/Config.lean ====
section
/-! DEFINITION. What the implementation fixes: the names of its timers, sub-channels, channels, halves and modes, the
turns its agents take, and the two parameters the spec leaves open, SCHED and LATCH (R9). -/

namespace Sys2Proof

/-- The three timers (R16, R40): the first auxiliary, the primary and the second auxiliary timer. -/
inductive Timer
  | aux1
  | pri
  | aux2
deriving DecidableEq, Repr, Inhabited

/-- The two sub-channels of a timer (R7, R12). -/
inductive SubChannel
  | a
  | b
deriving DecidableEq, Repr, Inhabited

/-- The four logical channels (R42). -/
inductive Channel
  | ch0A
  | ch0B
  | ch1A
  | ch1B
deriving DecidableEq, Repr, Inhabited

/-- The two halves of an encoded duty (R16). -/
inductive Half
  | high
  | low
deriving DecidableEq, Repr, Inhabited

/-- STATUS.MODE, all four of whose codes have a name (R43). -/
inductive Mode
  | unset
  | two
  | four
  | rev
deriving DecidableEq, Repr, Inhabited

/-- The index of an output pin, 0 to 5 (R41). -/
abbrev Pin := Fin 6

/-- The widths a bus master could ask for; the block admits `word` alone (R102). -/
inductive AccessSize
  | byte
  | half
  | word
deriving DecidableEq, Repr, Inhabited

/-- A host bus transaction (R13, R140): a read of `size` at `off`, or a write of `v` there. -/
inductive Access
  | read (size : AccessSize) (off : Offset)
  | write (size : AccessSize) (off : Offset) (v : Word)
deriving DecidableEq, Repr, Inhabited

/-- One step of one of the four agents (R6): a host access, a sequencer step, a tick of the timer unit, or a reset. -/
inductive Turn
  | host (access : Access)
  | sequencer
  | tick
  | reset
deriving DecidableEq, Repr, Inhabited

/-- SCHED, the interleaving of agent steps (R9, R441), a parameter the spec leaves open: the `n`-th turn that is taken
once the turns already settled in the state have run out. It has no value a proof could use (log 1). -/
opaque Config.sched : Nat → Turn

/-- LATCH, the response of the external latch (R9, R190, R371), a parameter the spec leaves open: the level of the
combined output after a history of what a channel's two pins (pH, pL) drive, oldest first, with none for a pin that the
block does not drive: the level there is any value outside the block (93 U12), and no level is chosen for it (log 8). -/
opaque Config.latch : List (Option Bool × Option Bool) → Bool

end Sys2Proof
end

