-- ==== Sys2Proof/Syntax.lean ====
section
/-! DEFINITION. The commands of the block: one constructor per row of the opcode table. -/

namespace Sys2Proof

/-- A command (R144). A row of the table stands for one INIT mode and for one ISHIGH timer (30_encoding.md, opening), so
these are constructors, and the operands left are the channel and code of WRITE, the code of ENCODE and the half of
ISHIGH (R143). -/
inductive Instr
  /-- NOP (R220). -/
  | nop
  /-- INIT TWO (R221). -/
  | initTwo
  /-- INIT FOUR (R221). -/
  | initFour
  /-- INIT REV (R221). -/
  | initRev
  /-- WRITE ch, #code (R320). -/
  | write (ch : Channel) (code : Code)
  /-- ENCODE #code (R255). -/
  | encode (code : Code)
  /-- ISHIGH AUX1, half (R305). -/
  | ishighAux1 (half : Half)
  /-- ISHIGH PRI, half (R305). -/
  | ishighPri (half : Half)
  /-- ISHIGH AUX2, half (R305). -/
  | ishighAux2 (half : Half)
deriving DecidableEq, Repr, Inhabited

end Sys2Proof
end

