-- ==== Sys2Proof/WellFormed.lean ====
section
/-! DEFINITION. What well-formed commands and well-formed host accesses are. -/

namespace Sys2Proof

/-- Every term of `Instr` is a command of the spec: the operand types admit exactly the values R143 calls legal (four
channels, every 16-bit code, two halves), and the reserved SEL values of INIT and ISHIGH have no constructor. What a
word can get wrong is checked by `decode`. -/
def Instr.wellFormed : Instr → Bool
  | .nop => true
  | .initTwo => true
  | .initFour => true
  | .initRev => true
  | .write _ _ => true
  | .encode _ => true
  | .ishighAux1 _ => true
  | .ishighPri _ => true
  | .ishighAux2 _ => true

/-- The byte offset an access names. -/
def Access.off : Access → Offset
  | .read _ off => off
  | .write _ off _ => off

/-- The width an access asks for. -/
def Access.size : Access → AccessSize
  | .read size _ => size
  | .write size _ _ => size

/-- R102, first check: the access is 32 bits wide. -/
def Access.wordSized (x : Access) : Bool := x.size == .word

/-- R102, second check: the offset is a multiple of 4. -/
def Access.aligned (x : Access) : Bool := x.off.toNat % 4 == 0

/-- The one access form the bus interface takes (R102). -/
def Access.wellFormed (x : Access) : Bool := x.wordSized && x.aligned

end Sys2Proof
end

