-- ==== Sys2Proof/Decode.lean ====
section
/-! DEFINITION. Command words: the decoder, total on any 32-bit word, then the encoder and the assembly syntax. -/

namespace Sys2Proof

/-- OP, bits [31:28] (R141). -/
def fieldOp (w : Word) : BitVec 4 := w.extractLsb' 28 4

/-- RSV, bits [27:19] (R141). -/
def fieldRsv (w : Word) : BitVec 9 := w.extractLsb' 19 9

/-- HALF, bit [18] (R141). -/
def fieldHalf (w : Word) : BitVec 1 := w.extractLsb' 18 1

/-- SEL, bits [17:16] (R141). -/
def fieldSel (w : Word) : BitVec 2 := w.extractLsb' 16 2

/-- CODE, bits [15:0] (R141, R143). -/
def fieldCode (w : Word) : Code := w.extractLsb' 0 16

/-- What a 32-bit word decodes to (R148): a command, a reserved opcode (R145) or a reserved field (R146). -/
inductive Decoded
  | command (i : Instr)
  | reservedOpcode
  | reservedField
deriving DecidableEq, Repr

/-- The 2-bit channel codes (R42). -/
def Channel.ofBits (sel : BitVec 2) : Channel :=
  match sel.toNat with
  | 0 => .ch0A
  | 1 => .ch0B
  | 2 => .ch1A
  | _ => .ch1B

/-- The half a HALF bit names: 1 is High, 0 is Low (R141). -/
def Half.ofBit (h : BitVec 1) : Half := if h = 1#1 then .high else .low

/-- INIT's mode by SEL; SEL = 00 is reserved (R143, R146). -/
def decodeInit (sel : BitVec 2) : Decoded :=
  match sel.toNat with
  | 1 => .command .initTwo
  | 2 => .command .initFour
  | 3 => .command .initRev
  | _ => .reservedField

/-- ISHIGH's timer by SEL, the timer ids of R40; SEL = 11 is reserved (R143, R146). -/
def decodeIshigh (sel : BitVec 2) (half : Half) : Decoded :=
  match sel.toNat with
  | 0 => .command (.ishighAux1 half)
  | 1 => .command (.ishighPri half)
  | 2 => .command (.ishighAux2 half)
  | _ => .reservedField

/-- The decoder (R148). Its checks come in the order of that rule: the opcode (R144, R145), then the should-be-zero bits
of the command (R142), then the reserved SEL values (R146). -/
def decode (w : Word) : Decoded :=
  match (fieldOp w).toNat with
  | 0 =>
    if fieldRsv w = 0 ∧ fieldHalf w = 0 ∧ fieldSel w = 0 ∧ fieldCode w = 0 then .command .nop
    else .reservedField
  | 1 => if fieldRsv w = 0 ∧ fieldHalf w = 0 ∧ fieldCode w = 0 then decodeInit (fieldSel w) else .reservedField
  | 2 =>
    if fieldRsv w = 0 ∧ fieldHalf w = 0 then .command (.write (Channel.ofBits (fieldSel w)) (fieldCode w))
    else .reservedField
  | 3 =>
    if fieldRsv w = 0 ∧ fieldHalf w = 0 ∧ fieldSel w = 0 then .command (.encode (fieldCode w))
    else .reservedField
  | 4 =>
    if fieldRsv w = 0 ∧ fieldCode w = 0 then decodeIshigh (fieldSel w) (Half.ofBit (fieldHalf w))
    else .reservedField
  | _ => .reservedOpcode

/-- The instruction read from the low `nbits` bits of `w`, every higher bit 0; `none` where the word is reserved. -/
def decodeTableWord (nbits w : Nat) : Option Instr :=
  match decode (BitVec.ofNat 32 (w % 2 ^ nbits)) with
  | .command i => some i
  | .reservedOpcode => none
  | .reservedField => none

/-! ## The encoder -/

/-- The channel code of R42. -/
def Channel.bits : Channel → BitVec 2
  | .ch0A => 0#2
  | .ch0B => 1#2
  | .ch1A => 2#2
  | .ch1B => 3#2

/-- The HALF bit of R141. -/
def Half.bit : Half → BitVec 1
  | .high => 1#1
  | .low => 0#1

/-- A word of format C32 from its fields (R141). -/
def packC32 (op : BitVec 4) (half : BitVec 1) (sel : BitVec 2) (code : Code) : Word :=
  op ++ 0#9 ++ half ++ sel ++ code

/-- The word of a command (R142, R149). -/
def encode : Instr → Word
  | .nop => packC32 0 0 0 0
  | .initTwo => packC32 1 0 1 0
  | .initFour => packC32 1 0 2 0
  | .initRev => packC32 1 0 3 0
  | .write ch code => packC32 2 0 ch.bits code
  | .encode code => packC32 3 0 0 code
  | .ishighAux1 half => packC32 4 half.bit 0 0
  | .ishighPri half => packC32 4 half.bit 1 0
  | .ishighAux2 half => packC32 4 half.bit 2 0

/-- The pseudo-instruction ON ch: WRITE ch, #0xFFFF (R150). -/
def Instr.pseudoOn (ch : Channel) : Instr := .write ch 0xFFFF#16

/-- The pseudo-instruction OFF ch: WRITE ch, #0x0000 (R150). -/
def Instr.pseudoOff (ch : Channel) : Instr := .write ch 0x0000#16

/-! ## Assembly syntax (R149) -/

/-- The channel's name in the syntax of R149. -/
def Channel.assembly : Channel → String
  | .ch0A => "CH_0A"
  | .ch0B => "CH_0B"
  | .ch1A => "CH_1A"
  | .ch1B => "CH_1B"

/-- The half's name in the syntax of R149. -/
def Half.assembly : Half → String
  | .high => "HIGH"
  | .low => "LOW"

/-- A command in the syntax of R149, the code in decimal. -/
def Instr.assembly : Instr → String
  | .nop => "NOP"
  | .initTwo => "INIT TWO"
  | .initFour => "INIT FOUR"
  | .initRev => "INIT REV"
  | .write ch code => "WRITE " ++ ch.assembly ++ ", #" ++ toString code.toNat
  | .encode code => "ENCODE #" ++ toString code.toNat
  | .ishighAux1 half => "ISHIGH AUX1, " ++ half.assembly
  | .ishighPri half => "ISHIGH PRI, " ++ half.assembly
  | .ishighAux2 half => "ISHIGH AUX2, " ++ half.assembly

end Sys2Proof
end

