-- ==== Sys2Proof/Machine/State.lean ====
section
/-! DEFINITION. The state of the machine, the reasons a step can stop, and the state after reset. -/

namespace Sys2Proof.Machine

/-- The register set of one timer with a `w`-bit counter (R58): w = 8 for AUX1 and AUX2, 16 for PRI. -/
structure TimerRegs (w : Nat) where
  /-- CTRL.WGM, the waveform generation mode (R49). -/
  wgm : BitVec 2
  /-- CTRL.CS, the clock and prescaler select (R50). -/
  cs : BitVec 3
  /-- CTRL.COMA, the compare-output mode of sub-channel A (R51). -/
  coma : BitVec 2
  /-- CTRL.COMB, the compare-output mode of sub-channel B (R51). -/
  comb : BitVec 2
  /-- OCRA, the compare register of sub-channel A (R52). -/
  ocra : BitVec w
  /-- OCRB, the compare register of sub-channel B (R52). -/
  ocrb : BitVec w
  /-- CNT, the counter (R53). -/
  cnt : BitVec w
  /-- PSC, the prescaler divider count (R55). -/
  psc : BitVec 8
deriving DecidableEq, Repr

/-- The codes of the model faults (R381). -/
inductive FaultCode
  /-- A command is in progress. -/
  | cmdBusy
  /-- The word's opcode is 0x5 to 0xF. -/
  | reservedOpcode
  /-- A should-be-zero bit is 1, or SEL is reserved. -/
  | reservedField
  /-- WRITE while INIT_DONE = 0. -/
  | writeBeforeInit
  /-- INIT while MODE is not UNSET. -/
  | reinit
  /-- An aligned 32-bit access to an unmapped offset, or a write to a read-only register. -/
  | badAccess
deriving DecidableEq, Repr

/-- A member of FAULTS, the pair (code, info) (R60); info is the word w, or the offset zero-extended (R381). -/
structure ModelFault where
  code : FaultCode
  info : Word
deriving DecidableEq, Repr

/-- The block: every piece of state the spec gives the hardware, and the model fault set FAULTS. -/
structure Block where
  /-- CMDREG, the command word being executed, hidden (R31). -/
  cmdreg : Word
  /-- UPC, the index of the next micro-operation, hidden (R31). -/
  upc : BitVec 4
  /-- STATUS.BUSY (R33). -/
  busy : Bool
  /-- STATUS.INIT_DONE (R34). -/
  initDone : Bool
  /-- STATUS.MODE (R43). -/
  mode : Mode
  /-- SYNCCTL.HALT (R45). -/
  halt : Bool
  /-- SYNCCTL.PSRST (R45). -/
  psrst : Bool
  /-- ENCRES.LOW (R46). -/
  encLow : Byte
  /-- ENCRES.HIGH (R46). -/
  encHigh : Byte
  /-- ENCRES.FULL_OFF (R35, R46). -/
  encFullOff : Bool
  /-- ENCRES.FULL_ON (R35, R46). -/
  encFullOn : Bool
  /-- QRES.IS_HIGH (R36, R47). -/
  qIsHigh : Bool
  /-- T[AUX1] (R58). -/
  aux1 : TimerRegs 8
  /-- T[PRI] less its TOP (R58). -/
  pri : TimerRegs 16
  /-- T[AUX2] (R58). -/
  aux2 : TimerRegs 8
  /-- T[PRI].TOP (R54). -/
  priTop : BitVec 16
  /-- PINCTL.DIR, one bit per pin (R56). -/
  dir : BitVec 6
  /-- PINCTL.LVL, one bit per pin (R56). -/
  lvl : BitVec 6
  /-- SAVED_COM, hidden (R59). -/
  savedCom : BitVec 2
  /-- FAULTS, the model fault set, as a list strictly rising in `ModelFault.key` (R60; log 6). -/
  faults : List ModelFault
deriving DecidableEq, Repr

/-- The machine: the block, and three fields of the MODEL's own that say what the world outside it does and sees. -/
structure State where
  /-- The block. -/
  block : Block
  /-- The value the last host read returned, the v of R104 (log 2). -/
  rdata : Word
  /-- The turns already settled, the next one first; when it is empty SCHED chooses (R9; log 1). -/
  sched : List Turn
  /-- How many turns SCHED has chosen so far: the argument of `Config.sched` (log 1). -/
  slot : Nat
deriving DecidableEq, Repr

/-- Why the machine stops with a fault. A MODEL FAULT of the spec (R381) is not one of these: it is recorded in FAULTS
and the machine goes on. -/
inductive Fault
  /-- A sequencer step is enabled (BUSY = 1) and `uprog` has no micro-operation at UPC, or CMDREG holds a reserved word.
  Raised by the sequencer step. No run from reset reaches it (R32). Safe: the spec gives such a state no step (log 5). -/
  | noMicroOperation
deriving DecidableEq, Repr

/-- Why the machine refuses. -/
inductive Refusal
  /-- Raised by an arm of `exec` whose instruction has no meaning yet; safe. No arm is left. -/
  | notModelled (mnemonic : String)
  /-- Raised by a host access that is misaligned or not 32 bits wide: "the access has no step and the model is stuck on
  it" (R102, 93 U6). Safe: the hardware ignores the access (log 3). -/
  | unadmittedAccess
deriving DecidableEq, Repr

/-- A timer after reset (R58, R63). -/
def TimerRegs.reset (w : Nat) : TimerRegs w :=
  { wgm := 0#2, cs := 0#3, coma := 0#2, comb := 0#2, ocra := 0#w, ocrb := 0#w, cnt := 0#w, psc := 0#8 }

/-- The block after reset (R63). -/
def Block.reset : Block :=
  { cmdreg := 0#32, upc := 0#4, busy := false, initDone := false, mode := .unset, halt := false, psrst := false,
    encLow := 0#8, encHigh := 0#8, encFullOff := false, encFullOn := false, qIsHigh := false,
    aux1 := TimerRegs.reset 8, pri := TimerRegs.reset 16, aux2 := TimerRegs.reset 8, priTop := 0#16,
    dir := 0#6, lvl := 0#6, savedCom := 0#2, faults := [] }

/-- The machine right after reset: the block as R63 says, nothing settled of the schedule, no read made (log 1, 2). -/
def State.reset : State :=
  { block := Block.reset, rdata := 0#32, sched := [], slot := 0 }

end Sys2Proof.Machine
end

