-- ==== Sys2Proof/Machine/Ops.lean ====
section
/-! DEFINITION. The named operations over the registers, and raising a model fault. -/

namespace Sys2Proof.Machine

/-! ## Field encodings -/

/-- STATUS.MODE's code (R43). -/
def modeBits : Mode → BitVec 2
  | .unset => 0#2
  | .two => 1#2
  | .four => 2#2
  | .rev => 3#2

/-- `modeIsReversed` (R43). -/
def modeIsReversed (m : Mode) : Bool := m == .rev

/-- `fourChannel` (R43). -/
def fourChannel (m : Mode) : Bool := m == .four || m == .rev

/-- WGM NORMAL (R49). -/
def wgmNormal : BitVec 2 := 0#2

/-- WGM FPWM8 (R49). -/
def wgmFpwm8 : BitVec 2 := 1#2

/-- WGM FPWM_TOP (R49). -/
def wgmFpwmTop : BitVec 2 := 2#2

/-- CS NONE (R50). -/
def csNone : BitVec 3 := 0#3

/-- CS DIV1 (R50). -/
def csDiv1 : BitVec 3 := 1#3

/-- CS DIV256 (R50). -/
def csDiv256 : BitVec 3 := 2#3

/-- COM OFF (R51). -/
def comOff : BitVec 2 := 0#2

/-- COM NONINV (R51). -/
def comNoninv : BitVec 2 := 2#2

/-- COM INV (R51). -/
def comInv : BitVec 2 := 3#2

/-! ## Timers, sub-channels and pins -/

/-- A timer's identity tid (R40). -/
def tid : Timer → Nat
  | .aux1 => 0
  | .pri => 1
  | .aux2 => 2

/-- `sub(A) = 0`, `sub(B) = 1` (R41). -/
def subIndex : SubChannel → Nat
  | .a => 0
  | .b => 1

/-- The pin of a sub-channel, `p = 2*tid + sub` (R41). -/
def pin (t : Timer) (s : SubChannel) : Pin := Fin.ofNat 6 (2 * tid t + subIndex s)

/-- `tmr(p)`, the timer of a pin (R41). -/
def tmr (p : Pin) : Timer :=
  match p.val / 2 with
  | 0 => .aux1
  | 1 => .pri
  | _ => .aux2

/-- `subch(p)`, the sub-channel of a pin (R41). -/
def subch (p : Pin) : SubChannel := if p.val % 2 = 0 then .a else .b

/-- Bit p of a pin register. -/
def pinBit (v : BitVec 6) (p : Pin) : Bool := v.getLsbD p.val

/-- A pin register with bit p written. -/
def setPinBit (v : BitVec 6) (p : Pin) (x : Bool) : BitVec 6 :=
  if x then v ||| (1#6 <<< p.val) else v &&& ~~~(1#6 <<< p.val)

/-! ## Fields of one timer -/

/-- The compare-output mode of a sub-channel (R51). -/
def TimerRegs.com {w : Nat} (r : TimerRegs w) : SubChannel → BitVec 2
  | .a => r.coma
  | .b => r.comb

/-- Writes the compare-output mode of a sub-channel (R51). -/
def TimerRegs.setCom {w : Nat} (r : TimerRegs w) (s : SubChannel) (v : BitVec 2) : TimerRegs w :=
  match s with
  | .a => { r with coma := v }
  | .b => { r with comb := v }

/-- The compare register of a sub-channel (R52). -/
def TimerRegs.ocr {w : Nat} (r : TimerRegs w) : SubChannel → BitVec w
  | .a => r.ocra
  | .b => r.ocrb

/-- Writes the compare register of a sub-channel (R52). -/
def TimerRegs.setOcr {w : Nat} (r : TimerRegs w) (s : SubChannel) (v : BitVec w) : TimerRegs w :=
  match s with
  | .a => { r with ocra := v }
  | .b => { r with ocrb := v }

/-- CTRL, with WGM[1:0], CS[6:4], COMA[9:8], COMB[11:10] (R49, R50, R51). -/
def TimerRegs.ctrl {w : Nat} (r : TimerRegs w) : BitVec 12 :=
  r.comb ++ r.coma ++ 0#1 ++ r.cs ++ 0#2 ++ r.wgm

/-! ## Fields of the timers of a block -/

/-- Applies one operation to the register set of timer t, whatever its width. -/
def Block.onTimer (b : Block) (t : Timer) (f : (w : Nat) → TimerRegs w → TimerRegs w) : Block :=
  match t with
  | .aux1 => { b with aux1 := f 8 b.aux1 }
  | .pri => { b with pri := f 16 b.pri }
  | .aux2 => { b with aux2 := f 8 b.aux2 }

/-- `COM[t][s]` (R12, R51). -/
def Block.com (b : Block) (t : Timer) (s : SubChannel) : BitVec 2 :=
  match t with
  | .aux1 => b.aux1.com s
  | .pri => b.pri.com s
  | .aux2 => b.aux2.com s

/-- `COM[t][s] <- v` (R12). -/
def Block.setCom (b : Block) (t : Timer) (s : SubChannel) (v : BitVec 2) : Block :=
  b.onTimer t fun _ r => r.setCom s v

/-- `OCR[t][s]`, zero-extended to 16 bits for an auxiliary timer (R52). -/
def Block.ocr (b : Block) (t : Timer) (s : SubChannel) : BitVec 16 :=
  match t with
  | .aux1 => (b.aux1.ocr s).setWidth 16
  | .pri => b.pri.ocr s
  | .aux2 => (b.aux2.ocr s).setWidth 16

/-- `OCR[t][s] <- v`, at the width of timer t (R52, R333). -/
def Block.setOcr (b : Block) (t : Timer) (s : SubChannel) (v : BitVec 16) : Block :=
  b.onTimer t fun w r => r.setOcr s (v.setWidth w)

/-- `T[t].CTRL` as a 12-bit value (R49). -/
def Block.ctrl (b : Block) (t : Timer) : BitVec 12 :=
  match t with
  | .aux1 => b.aux1.ctrl
  | .pri => b.pri.ctrl
  | .aux2 => b.aux2.ctrl

/-- `T[t].CS` (R50). -/
def Block.cs (b : Block) (t : Timer) : BitVec 3 :=
  match t with
  | .aux1 => b.aux1.cs
  | .pri => b.pri.cs
  | .aux2 => b.aux2.cs

/-- `T[t].WGM` (R49). -/
def Block.wgm (b : Block) (t : Timer) : BitVec 2 :=
  match t with
  | .aux1 => b.aux1.wgm
  | .pri => b.pri.wgm
  | .aux2 => b.aux2.wgm

/-- `T[t].CNT`, zero-extended to 16 bits for an auxiliary timer (R53). -/
def Block.cnt (b : Block) (t : Timer) : BitVec 16 :=
  match t with
  | .aux1 => b.aux1.cnt.setWidth 16
  | .pri => b.pri.cnt
  | .aux2 => b.aux2.cnt.setWidth 16

/-- `T[t].PSC` (R55). -/
def Block.psc (b : Block) (t : Timer) : BitVec 8 :=
  match t with
  | .aux1 => b.aux1.psc
  | .pri => b.pri.psc
  | .aux2 => b.aux2.psc

/-! ## Pin registers -/

/-- `DIR[p] <- 1` (R334). -/
def Block.setDir (b : Block) (p : Pin) : Block := { b with dir := setPinBit b.dir p true }

/-- `LVL[p] <- v` (R360, R361). -/
def Block.setLvl (b : Block) (p : Pin) (v : Bool) : Block := { b with lvl := setPinBit b.lvl p v }

/-! ## Model faults: the block has no trap (R387), so raising one is all there is to taking an exception -/

/-- The number of a fault code (R381). -/
def FaultCode.number : FaultCode → Nat
  | .cmdBusy => 1
  | .reservedOpcode => 2
  | .reservedField => 3
  | .writeBeforeInit => 4
  | .reinit => 5
  | .badAccess => 6

/-- The place of a fault in the list that stands for FAULTS: by code, then by info (log 6). -/
def ModelFault.key (f : ModelFault) : Nat := f.code.number * 2 ^ 32 + f.info.toNat

/-- Adds a fault to the set; one that is a member already changes nothing (R60; log 6). -/
def insertFault (f : ModelFault) : List ModelFault → List ModelFault
  | [] => [f]
  | g :: rest =>
    if f.key < g.key then f :: g :: rest
    else if f.key = g.key then g :: rest
    else g :: insertFault f rest

/-- `raise Fault(code, info)`: the pair joins FAULTS, and nothing else changes: no register, no UPC, no BUSY (R14, R380,
R387). -/
def Block.raise (b : Block) (code : FaultCode) (info : Word) : Block :=
  { b with faults := insertFault { code := code, info := info } b.faults }

/-! ## The schedule -/

/-- The turn is taken: the next one comes to the head of the schedule (log 1). -/
def State.pop (s : State) : State := { s with sched := s.sched.tail }

/-- The next turn is settled: where none is, SCHED chooses one (R9, R441; log 1). -/
def State.scheduled (s : State) : State :=
  match s.sched with
  | [] => { s with sched := [Config.sched s.slot], slot := s.slot + 1 }
  | _ :: _ => s

/-- The block takes a new value and the turn is over. -/
def State.done (s : State) (b : Block) : State := { s.pop with block := b }

/-! ## Bytes of a word -/

/-- Byte k of a serialised register value, bits [8k+7:8k] (R103). -/
def wordByte (v : Word) (k : Fin 4) : BitVec 8 := v.extractLsb' (8 * k.val) 8

/-- The register value whose bytes 0 to 3 these are (R103). -/
def ofWordBytes (b0 b1 b2 b3 : BitVec 8) : Word := b3 ++ b2 ++ b1 ++ b0

end Sys2Proof.Machine
end

