-- ==== Sys2Proof/Machine/Flags.lean ====
section
/-! DEFINITION. How each flag is computed (10_state.md section 3). -/

namespace Sys2Proof.Machine

/-- BUSY after acceptance: set when the micro-program is not empty (R33, R162). -/
def busyAfterAccept (length : Nat) : Bool := decide (0 < length)

/-- BUSY after the sequencer step that leaves UPC at `n`: cleared by the last micro-operation, else kept (R33, R163). -/
def busyAfterStep (n length : Nat) (busy : Bool) : Bool := if n = length then false else busy

/-- `isFullyOn` of the encoder: exactly the code 0xFFFF (R251). -/
def isFullyOn (code : Code) : Bool := code == 0xFFFF#16

/-- `isFullyOff` of the encoder: exactly the code 0x0000 (R251). -/
def isFullyOff (code : Code) : Bool := code == 0x0000#16

end Sys2Proof.Machine
end

