-- ==== Sys2Proof/Machine/Encoder.lean ====
section
/-! DEFINITION. The Duty Encoder (file 42). -/

namespace Sys2Proof.Machine

/-- The encoder's outputs (R250). -/
structure Encoded where
  high : Byte
  low : Byte
  fullOn : Bool
  fullOff : Bool
deriving DecidableEq, Repr

/-- `encode(code)` (R250). The tests for the two flagged codes come before the addition, as R252 requires; their bytes
are 0x00, which the spec fixes (R250; log 19). -/
def encodeDuty (code : Code) : Encoded :=
  if isFullyOn code then { high := 0x00#8, low := 0x00#8, fullOn := true, fullOff := false }
  else if isFullyOff code then { high := 0x00#8, low := 0x00#8, fullOn := false, fullOff := true }
  else
    let adjusted : Nat := code.toNat + 1
    { high := BitVec.ofNat 8 (adjusted >>> 8), low := BitVec.ofNat 8 adjusted, fullOn := false, fullOff := false }

/-- `ocr(b)`: the compare value of an encoded byte, none for the sentinel 0 (R253). -/
def ocrOfByte (b : Byte) : Option Byte := if b = 0#8 then none else some (b - 1#8)

end Sys2Proof.Machine
end

