-- ==== Sys2Proof/Machine/Operands.lean ====
section
/-! DEFINITION. What the operands of the commands select: halves and roles (file 44), channels, routings and pins
(R42). -/

namespace Sys2Proof.Machine

/-- `isHighHalf(t, half)`: the XOR of three bits, t being the first auxiliary timer, the mode being REV, and the half
being High (R300). It reads nothing but the mode (R307). -/
def isHighHalf (m : Mode) (t : Timer) (half : Half) : Bool :=
  (t == .aux1) ^^ modeIsReversed m ^^ (half == .high)

/-- `role(t)` (R302). The spec defines it for AUX1 and AUX2; for PRI this is the same formula and nothing uses it
(log 11). -/
def role (m : Mode) (t : Timer) : Half := if isHighHalf m t .high then .high else .low

/-- TH, the auxiliary timer with role High (R302). -/
def timerHigh (m : Mode) : Timer := if role m .aux1 = .high then .aux1 else .aux2

/-- TL, the auxiliary timer with role Low (R302). -/
def timerLow (m : Mode) : Timer := if role m .aux1 = .low then .aux1 else .aux2

/-- The sub-channel of a channel (R42). -/
def channelSub : Channel → SubChannel
  | .ch0A => .a
  | .ch0B => .b
  | .ch1A => .a
  | .ch1B => .b

/-- Whether a channel is primary-routed (R42). -/
def primaryRouted : Channel → Bool
  | .ch0A => false
  | .ch0B => false
  | .ch1A => true
  | .ch1B => true

/-- pH of a channel: the high-half pin, or the one pin of a primary-routed channel (R42). -/
def pinHigh (m : Mode) (ch : Channel) : Pin :=
  if primaryRouted ch then pin .pri (channelSub ch) else pin (timerHigh m) (channelSub ch)

/-- pL of a channel: the low-half pin, or the one pin of a primary-routed channel (R42). -/
def pinLow (m : Mode) (ch : Channel) : Pin :=
  if primaryRouted ch then pin .pri (channelSub ch) else pin (timerLow m) (channelSub ch)

/-- `valid(mode, ch)` (R321). -/
def validChannel (m : Mode) (ch : Channel) : Bool := primaryRouted ch || fourChannel m

end Sys2Proof.Machine
end

