-- ==== Sys2Proof/Machine/TimerUnit.lean ====
section
/-! DEFINITION. The timer unit's tick and the pin outputs (file 40). -/

namespace Sys2Proof.Machine

/-! ## Counting -/

/-- `divisor(t)` by CS; none for NONE and for the reserved values (R181; log 9). -/
def TimerRegs.divisor {w : Nat} (r : TimerRegs w) : Option Nat :=
  if r.cs = csDiv1 then some 1 else if r.cs = csDiv256 then some 256 else none

/-- `top(t)` by WGM. `topReg` is the TOP register, which PRI alone has (R182; log 9). -/
def TimerRegs.top {w : Nat} (topReg : Option (BitVec w)) (r : TimerRegs w) : BitVec w :=
  if r.wgm = wgmNormal then BitVec.allOnes w
  else if r.wgm = wgmFpwm8 then BitVec.ofNat w 0xFF
  else if r.wgm = wgmFpwmTop then topReg.getD (BitVec.allOnes w)
  else BitVec.allOnes w

/-- `next(t, c)`, the counter advance (R184; log 18). -/
def nextCount {w : Nat} (top c : BitVec w) : BitVec w := if c = top then 0#w else c + 1#w

/-- One tick of one timer that is not halted (R183; log 18). -/
def TimerRegs.tick {w : Nat} (psrst : Bool) (topReg : Option (BitVec w)) (r : TimerRegs w) : TimerRegs w :=
  match r.divisor with
  | none => r
  | some d =>
    if psrst then { r with psc := 0#8 }
    else
      let psc' := (r.psc.toNat + 1) % d
      { r with psc := BitVec.ofNat 8 psc', cnt := if psc' = 0 then nextCount (r.top topReg) r.cnt else r.cnt }

/-- TICK, one step of the timer unit: no change while HALT = 1, else every running timer at once (R183). -/
def Block.tick (b : Block) : Block :=
  if b.halt then b
  else
    { b with
      aux1 := b.aux1.tick b.psrst none
      pri := b.pri.tick b.psrst (some b.priTop)
      aux2 := b.aux2.tick b.psrst none }

/-! ## Waveforms and pins -/

/-- `wave(t, s)`; none where the rule says "undefined (not used)", that is for COM OFF and the reserved 01 (R187;
log 12). The compare register acts as soon as it is written (R186). -/
def TimerRegs.wave {w : Nat} (r : TimerRegs w) (s : SubChannel) : Option Bool :=
  if r.com s = comNoninv then some (decide (r.cnt.toNat ≤ (r.ocr s).toNat))
  else if r.com s = comInv then some (!decide (r.cnt.toNat ≤ (r.ocr s).toNat))
  else none

/-- `wave(t, s)` of a timer of the block (R187). -/
def Block.wave (b : Block) (t : Timer) (s : SubChannel) : Option Bool :=
  match t with
  | .aux1 => b.aux1.wave s
  | .pri => b.pri.wave s
  | .aux2 => b.aux2.wave s

/-- `OE[p]` (R188). -/
def Block.outputEnable (b : Block) (p : Pin) : Bool := pinBit b.dir p

/-- `OUT[p]`: 0 when the pin is not driven, the wave while its compare output is connected, else the static level
(R188). -/
def Block.out (b : Block) (p : Pin) : Bool :=
  if pinBit b.dir p then
    match b.wave (tmr p) (subch p) with
    | some level => level
    | none => pinBit b.lvl p
  else false

/-- The six values of a pin function as bits [5:0]. -/
def pinVector (f : Pin → Bool) : BitVec 6 :=
  BitVec.ofBool (f 5) ++ BitVec.ofBool (f 4) ++ BitVec.ofBool (f 3) ++ BitVec.ofBool (f 2) ++ BitVec.ofBool (f 1)
    ++ BitVec.ofBool (f 0)

/-- What a pin puts on its wire: OUT while OE = 1, and nothing while the pin is not driven. OUT = 0 of an undriven pin is
what PINOUT reads (R188), not a level outside the block, where it is any value (93 U12; that it reaches the latch as none
is the model's choice, log 8). -/
def Block.drivenLevel (b : Block) (p : Pin) : Option Bool := if b.outputEnable p then some (b.out p) else none

/-- What a channel's two pins (pH, pL) show the external latch (R190; log 8). -/
def Block.channelLevels (b : Block) (ch : Channel) : Option Bool × Option Bool :=
  (b.drivenLevel (pinHigh b.mode ch), b.drivenLevel (pinLow b.mode ch))

/-- The combined output of an auxiliary-routed channel after a history of the block, oldest first: a function of LATCH
and of the two pins alone (R190, R371; log 8). The block reads nothing back from it. -/
def combinedOutput (history : List Block) (ch : Channel) : Bool :=
  Config.latch (history.map fun b => b.channelLevels ch)

end Sys2Proof.Machine
end

