-- ==== Sys2Proof/Machine/Registers.lean ====
section
/-! DEFINITION. The host-readable registers and the address map (R101). -/

namespace Sys2Proof.Machine

/-- The mapped registers (R101). AUX1 and AUX2 have no TOP register (R54). -/
inductive Reg
  | cmd
  | status
  | encres
  | qres
  | syncctl
  | ctrl (t : Timer)
  | ocr (t : Timer) (s : SubChannel)
  | cnt (t : Timer)
  | top
  | psc (t : Timer)
  | pinctl
  | pinout
deriving DecidableEq, Repr

/-- The register at an offset; none where the offset is unmapped or misaligned (R101). -/
def regAt (off : Offset) : Option Reg :=
  match off.toNat with
  | 0x00 => some .cmd
  | 0x04 => some .status
  | 0x08 => some .encres
  | 0x0C => some .qres
  | 0x10 => some .syncctl
  | 0x20 => some (.ctrl .aux1)
  | 0x24 => some (.ocr .aux1 .a)
  | 0x28 => some (.ocr .aux1 .b)
  | 0x2C => some (.cnt .aux1)
  | 0x34 => some (.psc .aux1)
  | 0x40 => some (.ctrl .pri)
  | 0x44 => some (.ocr .pri .a)
  | 0x48 => some (.ocr .pri .b)
  | 0x4C => some (.cnt .pri)
  | 0x50 => some .top
  | 0x54 => some (.psc .pri)
  | 0x60 => some (.ctrl .aux2)
  | 0x64 => some (.ocr .aux2 .a)
  | 0x68 => some (.ocr .aux2 .b)
  | 0x6C => some (.cnt .aux2)
  | 0x74 => some (.psc .aux2)
  | 0x80 => some .pinctl
  | 0x84 => some .pinout
  | _ => none

/-- `base(t)`, the offset of a timer's register block (10_state.md section 5.1). -/
def timerBase (t : Timer) : Nat := 0x20 * (tid t + 1)

/-- The offset of a register, as the register's own rule gives it (R44 to R57). -/
def Reg.offset : Reg → Nat
  | .cmd => 0x00
  | .status => 0x04
  | .encres => 0x08
  | .qres => 0x0C
  | .syncctl => 0x10
  | .ctrl t => timerBase t
  | .ocr t .a => timerBase t + 0x04
  | .ocr t .b => timerBase t + 0x08
  | .cnt t => timerBase t + 0x0C
  | .top => 0x50
  | .psc t => timerBase t + 0x14
  | .pinctl => 0x80
  | .pinout => 0x84

/-- STATUS (R44). -/
def Block.statusWord (b : Block) : Word :=
  (modeBits b.mode ++ 0#2 ++ BitVec.ofBool b.initDone ++ BitVec.ofBool b.busy).setWidth 32

/-- ENCRES (R46). -/
def Block.encresWord (b : Block) : Word :=
  (BitVec.ofBool b.encFullOn ++ BitVec.ofBool b.encFullOff ++ b.encHigh ++ b.encLow).setWidth 32

/-- QRES (R47). -/
def Block.qresWord (b : Block) : Word := (BitVec.ofBool b.qIsHigh).setWidth 32

/-- SYNCCTL (R45). -/
def Block.syncctlWord (b : Block) : Word := (BitVec.ofBool b.psrst ++ BitVec.ofBool b.halt).setWidth 32

/-- PINCTL (R56). -/
def Block.pinctlWord (b : Block) : Word := (b.lvl ++ 0#2 ++ b.dir).setWidth 32

/-- PINOUT, computed from the state (R57, R188). -/
def Block.pinoutWord (b : Block) : Word :=
  (pinVector (fun p => b.outputEnable p) ++ 0#2 ++ pinVector (fun p => b.out p)).setWidth 32

/-- The value a host read of a register returns, its unlisted bits 0 (R104). -/
def Block.readReg (b : Block) : Reg → Word
  | .cmd => 0#32
  | .status => b.statusWord
  | .encres => b.encresWord
  | .qres => b.qresWord
  | .syncctl => b.syncctlWord
  | .ctrl t => (b.ctrl t).setWidth 32
  | .ocr t s => (b.ocr t s).setWidth 32
  | .cnt t => (b.cnt t).setWidth 32
  | .top => b.priTop.setWidth 32
  | .psc t => (b.psc t).setWidth 32
  | .pinctl => b.pinctlWord
  | .pinout => b.pinoutWord

/-- What a host read of an offset returns: 0 where nothing is mapped (R104, R107). -/
def Block.hostReads (b : Block) (off : Offset) : Word :=
  match regAt off with
  | some r => b.readReg r
  | none => 0#32

end Sys2Proof.Machine
end

