-- ==== Sys2Proof/Machine/MicroOps.lean ====
section
/-! DEFINITION. The fourteen micro-operations and what each performs on the block (R160). -/

namespace Sys2Proof.Machine

/-- A micro-operation (R15, R160). -/
inductive MicroOp
  | setMode (m : Mode)
  | syncHalt
  | syncClear
  | syncRelease
  | initFinish
  | encStore (code : Code)
  | config (t : Timer) (enA enB : Bool)
  | qhiStore (t : Timer) (half : Half)
  | writeOcr (t : Timer) (s : SubChannel) (v : BitVec 16)
  | setDir (p : Pin)
  | static (p : Pin) (v : Bool)
  | setLvl (p : Pin) (v : Bool)
  | saveCom (p : Pin)
  | restoreCom (p : Pin)
deriving DecidableEq, Repr

/-- SET_MODE(m) (R223). -/
def Block.opSetMode (b : Block) (m : Mode) : Block := { b with mode := m }

/-- SYNC_HALT (R226). -/
def Block.opSyncHalt (b : Block) : Block := { b with halt := true, psrst := true }

/-- The PSC and CNT of a timer cleared (R227). -/
def TimerRegs.clearCount {w : Nat} (r : TimerRegs w) : TimerRegs w := { r with psc := 0#8, cnt := 0#w }

/-- SYNC_CLEAR: every timer, running or stopped (R227). -/
def Block.opSyncClear (b : Block) : Block :=
  { b with aux1 := b.aux1.clearCount, pri := b.pri.clearCount, aux2 := b.aux2.clearCount }

/-- SYNC_RELEASE (R228). -/
def Block.opSyncRelease (b : Block) : Block := { b with halt := false, psrst := false }

/-- INIT_FINISH (R229). -/
def Block.opInitFinish (b : Block) : Block := { b with initDone := true }

/-- ENC_STORE(code): all of ENCRES from the encoder's outputs (R256). -/
def Block.opEncStore (b : Block) (code : Code) : Block :=
  let e := encodeDuty code
  { b with encLow := e.low, encHigh := e.high, encFullOff := e.fullOff, encFullOn := e.fullOn }

/-- The writes of CONFIG to one timer's CTRL: WGM and CS always, COM of the enabled sub-channels only (R281, R283). -/
def TimerRegs.config {w : Nat} (r : TimerRegs w) (wgm : BitVec 2) (cs : BitVec 3) (pol : BitVec 2) (enA enB : Bool) :
    TimerRegs w :=
  { r with wgm := wgm, cs := cs, coma := if enA then pol else r.coma, comb := if enB then pol else r.comb }

/-- The CS that CONFIG gives an auxiliary timer by its role (R281). -/
def csOfRole : Half → BitVec 3
  | .high => csDiv256
  | .low => csDiv1

/-- The polarity that CONFIG gives an auxiliary timer by its role (R281). -/
def comOfRole : Half → BitVec 2
  | .high => comNoninv
  | .low => comInv

/-- CONFIG(t, enA, enB) (R281). -/
def Block.opConfig (b : Block) (t : Timer) (enA enB : Bool) : Block :=
  match t with
  | .pri => { b with pri := b.pri.config wgmFpwmTop csDiv1 comNoninv enA enB, priTop := 0xFFFF#16 }
  | .aux1 =>
    let r := role b.mode .aux1
    { b with aux1 := b.aux1.config wgmFpwm8 (csOfRole r) (comOfRole r) enA enB }
  | .aux2 =>
    let r := role b.mode .aux2
    { b with aux2 := b.aux2.config wgmFpwm8 (csOfRole r) (comOfRole r) enA enB }

/-- QHI_STORE(t, half), with MODE as it is at this step (R306). -/
def Block.opQhiStore (b : Block) (t : Timer) (half : Half) : Block := { b with qIsHigh := isHighHalf b.mode t half }

/-- WRITE_OCR(t, s, v) (R333). -/
def Block.opWriteOcr (b : Block) (t : Timer) (s : SubChannel) (v : BitVec 16) : Block := b.setOcr t s v

/-- SET_DIR(p) (R334). -/
def Block.opSetDir (b : Block) (p : Pin) : Block := b.setDir p

/-- STATIC(p, v): the compare output disconnected and the level written, at once (R360). -/
def Block.opStatic (b : Block) (p : Pin) (v : Bool) : Block := (b.setCom (tmr p) (subch p) comOff).setLvl p v

/-- SET_LVL(p, v) (R361). -/
def Block.opSetLvl (b : Block) (p : Pin) (v : Bool) : Block := b.setLvl p v

/-- SAVE_COM(p) (R363). -/
def Block.opSaveCom (b : Block) (p : Pin) : Block := { b with savedCom := b.com (tmr p) (subch p) }

/-- RESTORE_COM(p); SAVED_COM keeps its value (R364). -/
def Block.opRestoreCom (b : Block) (p : Pin) : Block := b.setCom (tmr p) (subch p) b.savedCom

/-- A micro-operation is performed, exactly as its rule states (R160, R165). -/
def Block.perform (b : Block) : MicroOp → Block
  | .setMode m => b.opSetMode m
  | .syncHalt => b.opSyncHalt
  | .syncClear => b.opSyncClear
  | .syncRelease => b.opSyncRelease
  | .initFinish => b.opInitFinish
  | .encStore code => b.opEncStore code
  | .config t enA enB => b.opConfig t enA enB
  | .qhiStore t half => b.opQhiStore t half
  | .writeOcr t s v => b.opWriteOcr t s v
  | .setDir p => b.opSetDir p
  | .static p v => b.opStatic p v
  | .setLvl p v => b.opSetLvl p v
  | .saveCom p => b.opSaveCom p
  | .restoreCom p => b.opRestoreCom p

end Sys2Proof.Machine
end

