-- ==== Sys2Proof/Machine/Programs.lean ====
section
/-! DEFINITION. The micro-programs of the commands (R161). -/

namespace Sys2Proof.Machine

/-- The synchronizer's micro-sequence (R225). -/
def syncProgram : List MicroOp := [.syncHalt, .syncClear, .syncRelease]

/-- `initprog(m)` (R222). -/
def initProgram (m : Mode) : List MicroOp :=
  [.setMode m, .config .pri false false]
    ++ (if fourChannel m then [.config .aux1 false false, .config .aux2 false false] else [])
    ++ syncProgram ++ [.initFinish]

/-- `clearprog(pH, pL)`, the latch clear (R366). -/
def clearProgram (pH pL : Pin) : List MicroOp :=
  [.saveCom pH, .static pH false, .static pL false, .setLvl pL true, .restoreCom pH]

/-- `writeprog` of a primary-routed channel on sub-channel s (R322, R325, R326, R330). -/
def primaryProgram (s : SubChannel) (code : Code) : List MicroOp :=
  let e := encodeDuty code
  let p := pin .pri s
  if e.fullOn then [.setDir p, .static p true]
  else if e.fullOff then [.setDir p, .static p false]
  else [.setDir p, .config .pri (s == .a) (s == .b), .writeOcr .pri s code]

/-- The micro-operation that writes the compare value of an encoded byte, none for the sentinel 0 (R253, R331). -/
def ocrProgram (t : Timer) (s : SubChannel) (byte : Byte) : List MicroOp :=
  match ocrOfByte byte with
  | some v => [.writeOcr t s (v.setWidth 16)]
  | none => []

/-- The CONFIG of one half, enabling sub-channel s only where the half's byte is not zero (R322, R327). -/
def configHalf (t : Timer) (s : SubChannel) (byte : Byte) : MicroOp :=
  .config t (s == .a && byte != 0#8) (s == .b && byte != 0#8)

/-- The zero-byte handling (R322, R328). -/
def zeroProgram (pH pL : Pin) (high low : Byte) : List MicroOp :=
  if high = 0#8 then .static pH false :: clearProgram pH pL
  else if low = 0#8 then .static pL false :: clearProgram pH pL
  else []

/-- `writeprog` of an auxiliary-routed channel on sub-channel s (R322, R323, R325 to R328, R331). -/
def auxiliaryProgram (m : Mode) (s : SubChannel) (code : Code) : List MicroOp :=
  let e := encodeDuty code
  let tH := timerHigh m
  let tL := timerLow m
  let pH := pin tH s
  let pL := pin tL s
  let pre : List MicroOp := [.setDir pH, .setDir pL]
  if e.fullOn then pre ++ [.static pH true, .static pL true]
  else if e.fullOff then pre ++ [.static pH false, .static pL false] ++ clearProgram pH pL
  else
    pre ++ zeroProgram pH pL e.high e.low ++ [configHalf tH s e.high, configHalf tL s e.low]
      ++ ocrProgram tH s e.high ++ ocrProgram tL s e.low

/-- `writeprog(mode, ch, code)`; empty for a channel that is invalid in the mode (R321, R322). -/
def writeProgram (m : Mode) (ch : Channel) (code : Code) : List MicroOp :=
  if validChannel m ch then
    if primaryRouted ch then primaryProgram (channelSub ch) code else auxiliaryProgram m (channelSub ch) code
  else []

/-- `uprog(cmd, mode)`: a pure function of the command and STATUS.MODE (R161). -/
def uprog (i : Instr) (m : Mode) : List MicroOp :=
  match i with
  | .nop => []
  | .initTwo => initProgram .two
  | .initFour => initProgram .four
  | .initRev => initProgram .rev
  | .write ch code => writeProgram m ch code
  | .encode code => [.encStore code]
  | .ishighAux1 half => [.qhiStore .aux1 half]
  | .ishighPri half => [.qhiStore .pri half]
  | .ishighAux2 half => [.qhiStore .aux2 half]

end Sys2Proof.Machine
end

