-- ==== Sys2Proof/Machine/Sequencer.lean ====
section
/-! DEFINITION. Command issue and the sequencer step, the two transitions that every command is made of. -/

namespace Sys2Proof.Machine

/-- What a transition of the machine answers. -/
abbrev Result := Host.Outcome State Fault Refusal

/-! ## Issue -/

/-- The check on STATUS that belongs to the command itself: REINIT for INIT, WRITE_BEFORE_INIT for WRITE, none for the
others (R381). -/
def commandCheck (i : Instr) (b : Block) : Option FaultCode :=
  match i with
  | .nop => none
  | .initTwo => if b.mode = .unset then none else some .reinit
  | .initFour => if b.mode = .unset then none else some .reinit
  | .initRev => if b.mode = .unset then none else some .reinit
  | .write _ _ => if b.initDone then none else some .writeBeforeInit
  | .encode _ => none
  | .ishighAux1 _ => none
  | .ishighPri _ => none
  | .ishighAux2 _ => none

/-- `accept_check(w, S)`: the fault a CMD write of w raises, none where it is accepted (R381, R385). -/
def acceptCheck (w : Word) (b : Block) : Option FaultCode :=
  if b.busy then some .cmdBusy
  else
    match decode w with
    | .reservedOpcode => some .reservedOpcode
    | .reservedField => some .reservedField
    | .command i => commandCheck i b

/-- An accepted word: `CMDREG <- w; UPC <- 0; BUSY <- (len > 0)`, and no other register changes (R162). -/
def Block.accept (b : Block) (w : Word) (program : List MicroOp) : Block :=
  { b with cmdreg := w, upc := 0#4, busy := busyAfterAccept program.length }

/-- The issue of a command whose word is w: refused while busy, refused by the command's own check, else accepted (R162,
R381). A refused command leaves the command in progress as it was (R380, R388). -/
def issue (w : Word) (check : Option FaultCode) (program : List MicroOp) (s : State) : State :=
  if s.block.busy then s.done (s.block.raise .cmdBusy w)
  else
    match check with
    | some code => s.done (s.block.raise code w)
    | none => s.done (s.block.accept w program)

/-! ## The sequencer step -/

/-- The transition that performs one micro-operation: its effect, UPC one further, and BUSY cleared after the last
(R163). -/
def Block.afterOp (b : Block) (op : MicroOp) (length : Nat) : Block :=
  let n := b.upc.toNat + 1
  { b.perform op with upc := BitVec.ofNat 4 n, busy := busyAfterStep n length b.busy }

/-- The sequencer's turn on a command whose micro-program is `program` (R163). With BUSY = 0 the step is not enabled and
the turn passes (log 4). -/
def sequencerStep (program : List MicroOp) (s : State) : Result :=
  if s.block.busy then
    match program[s.block.upc.toNat]? with
    | some op => .next (s.done (s.block.afterOp op program.length))
    | none => .fault .noMicroOperation
  else .next s.pop

/-- The next transition of a command: at the sequencer's turn its next micro-operation (R163), at any other its issue
(R162). The turn stands at the head of the schedule (log 7). -/
def transition (w : Word) (check : Option FaultCode) (program : List MicroOp) (s : State) : Result :=
  match s.sched with
  | .sequencer :: _ => sequencerStep program s
  | _ => .next (issue w check program s)

end Sys2Proof.Machine
end

