-- ==== Sys2Proof/Machine/Agents.lean ====
section
/-! DEFINITION. Which command the next turn runs, and the turns that run none: host reads and writes, ticks, resets. -/

namespace Sys2Proof.Machine

/-- The word a CMD write carries; none for any other access (R48, R105, R140). -/
def commandWord (x : Access) : Option Word :=
  match x with
  | .read _ _ => none
  | .write _ off v => if x.wellFormed && off == 0x00#8 then some v else none

/-- The command of a word, none for a reserved one (R148). -/
def commandOf (w : Word) : Option Instr :=
  match decode w with
  | .command i => some i
  | .reservedOpcode => none
  | .reservedField => none

/-- The command the next turn runs: the one a CMD write issues (R162), or at the sequencer's turn the one in progress
(R163). The block fetches nothing else (R113, R422). -/
def fetch (s : State) : Option Instr :=
  match s.sched with
  | [] => none
  | .host x :: _ => (commandWord x).bind commandOf
  | .sequencer :: _ => if s.block.busy then commandOf s.block.cmdreg else none
  | .tick :: _ => none
  | .reset :: _ => none

/-- A CMD write of a reserved word: CMD_BUSY first, then the kind of reserved word (R145, R146, R381, R385). -/
def issueReserved (w : Word) (s : State) : State :=
  match acceptCheck w s.block with
  | some code => s.done (s.block.raise code w)
  | none => s.pop

/-- A host read of an admitted form (R104): the value in `rdata`, and BAD_ACCESS where nothing is mapped. -/
def hostRead (off : Offset) (s : State) : State :=
  match regAt off with
  | some r => { s.pop with rdata := s.block.readReg r }
  | none => { s.done (s.block.raise .badAccess (off.setWidth 32)) with rdata := 0#32 }

/-- A host write of an admitted form at an offset other than CMD: ignored, with BAD_ACCESS, whether the offset is
unmapped or a read-only register (R105, R107). -/
def hostWriteIgnored (off : Offset) (s : State) : State :=
  s.done (s.block.raise .badAccess (off.setWidth 32))

/-- A host access that runs no command (R104, R105). A misaligned or non-32-bit one has no step (R102). -/
def hostTurn (x : Access) (s : State) : Result :=
  if x.wellFormed then
    match x with
    | .read _ off => .next (hostRead off s)
    | .write _ off v => if off = 0x00#8 then .next (issueReserved v s) else .next (hostWriteIgnored off s)
  else .refused .unadmittedAccess

/-- The sequencer's turn where no command is in progress: not enabled, so it passes; with BUSY = 1 and a CMDREG that is
no command there is nothing to perform (R32, R163; log 4, log 5). -/
def idleSequencer (s : State) : Result :=
  if s.block.busy then .fault .noMicroOperation else .next s.pop

/-- The turn of a timer-unit tick (R183; log 17). -/
def tickTurn (s : State) : State := s.done s.block.tick

/-- The turn of a reset: every register and FAULTS at its reset value; the schedule, the host's, goes on (R420; log 13). -/
def resetTurn (s : State) : State := s.done Block.reset

/-- A turn that runs no command. -/
def agentTurn (s : State) : Result :=
  match s.sched with
  | [] => .next s
  | .host x :: _ => hostTurn x s
  | .sequencer :: _ => idleSequencer s
  | .tick :: _ => .next (tickTurn s)
  | .reset :: _ => .next (resetTurn s)

end Sys2Proof.Machine
end

