-- ==== Sys2Proof/Machine/Driver.lean ====
section
/-! DEFINITION. WRITE (file 45). -/

namespace Sys2Proof.Machine

/-- WRITE's own acceptance check: WRITE_BEFORE_INIT until INIT is done (R320, R381). -/
def writeCheck (b : Block) : Option FaultCode := if b.initDone then none else some .writeBeforeInit

/-- WRITE ch, #code (R320): `writeprog` in the mode STATUS.MODE holds, which does not change while it runs (R32). -/
def execWrite (ch : Channel) (code : Code) (s : State) : Result :=
  transition (encode (.write ch code)) (writeCheck s.block) (writeProgram s.block.mode ch code) s

end Sys2Proof.Machine
end

