-- ==== Sys2Proof/Machine/DutyCode.lean ====
section
/-! DEFINITION. ENCODE (file 42). -/

namespace Sys2Proof.Machine

/-- ENCODE #code (R255): one ENC_STORE, allowed in every mode. -/
def execEncode (code : Code) (s : State) : Result := transition (encode (.encode code)) none [.encStore code] s

end Sys2Proof.Machine
end

