-- ==== Sys2Proof/Machine/HalfRole.lean ====
section
/-! DEFINITION. ISHIGH (file 44). -/

namespace Sys2Proof.Machine

/-- ISHIGH AUX1, half (R305): one QHI_STORE, allowed in every mode. -/
def execIshighAux1 (half : Half) (s : State) : Result :=
  transition (encode (.ishighAux1 half)) none [.qhiStore .aux1 half] s

/-- ISHIGH PRI, half (R305): legal, with the formula's value for a timer that is not the first auxiliary. -/
def execIshighPri (half : Half) (s : State) : Result :=
  transition (encode (.ishighPri half)) none [.qhiStore .pri half] s

/-- ISHIGH AUX2, half (R305): one QHI_STORE, allowed in every mode. -/
def execIshighAux2 (half : Half) (s : State) : Result :=
  transition (encode (.ishighAux2 half)) none [.qhiStore .aux2 half] s

end Sys2Proof.Machine
end

