-- ==== Sys2Proof/Machine/Init.lean ====
section
/-! DEFINITION. NOP and INIT (file 41). -/

namespace Sys2Proof.Machine

/-- INIT's own acceptance check: REINIT once the mode is set (R221, R381). -/
def reinitCheck (b : Block) : Option FaultCode := if b.mode = .unset then none else some .reinit

/-- NOP (R220): its micro-program is empty, so it completes at acceptance. -/
def execNop (s : State) : Result := transition (encode .nop) none [] s

/-- INIT TWO (R221, R222): six micro-operations. -/
def execInitTwo (s : State) : Result := transition (encode .initTwo) (reinitCheck s.block) (initProgram .two) s

/-- INIT FOUR (R221, R222): eight micro-operations. -/
def execInitFour (s : State) : Result := transition (encode .initFour) (reinitCheck s.block) (initProgram .four) s

/-- INIT REV (R221, R222): eight micro-operations. -/
def execInitRev (s : State) : Result := transition (encode .initRev) (reinitCheck s.block) (initProgram .rev) s

end Sys2Proof.Machine
end

