-- ==== Sys2Proof/Machine/Dispatch.lean ====
section
/-! DEFINITION. One arm per command, each one call of its meaning. -/

namespace Sys2Proof.Machine

/-- The next transition of command `i` (R162, R163). -/
def exec (i : Instr) (s : State) : Host.Outcome State Fault Refusal :=
  match i with
  | .nop => Sys2Proof.Machine.execNop s
  | .initTwo => Sys2Proof.Machine.execInitTwo s
  | .initFour => Sys2Proof.Machine.execInitFour s
  | .initRev => Sys2Proof.Machine.execInitRev s
  | .write ch code => Sys2Proof.Machine.execWrite ch code s
  | .encode code => Sys2Proof.Machine.execEncode code s
  | .ishighAux1 half => Sys2Proof.Machine.execIshighAux1 half s
  | .ishighPri half => Sys2Proof.Machine.execIshighPri half s
  | .ishighAux2 half => Sys2Proof.Machine.execIshighAux2 half s

end Sys2Proof.Machine
end

