-- ==== Sys2Proof/Machine/Step.lean ====
section
/-! DEFINITION. One step of the machine, and where its next command comes from. -/

namespace Sys2Proof.Machine

/-- One transition of the whole state (R62, R109): the turn that is settled, or that SCHED chooses; the command it runs,
if it runs one. -/
def step (s : State) : Host.Outcome State Fault Refusal :=
  match fetch s.scheduled with
  | some i => exec i s.scheduled
  | none => agentTurn s.scheduled

/-- The host's write to CMD that carries a word (R105). -/
def cmdWrite (w : Word) : Turn := .host (.write .word 0x00#8 w)

/-- `s` with the very next turn a CMD write of the low `nbits` bits of `w`. Commands come from the host, outside the
machine, so this stands for what the host issues (R113, R422; log 1). -/
def State.withFetchWord (s : State) (nbits w : Nat) : State :=
  { s with sched := cmdWrite (BitVec.ofNat 32 (w % 2 ^ nbits)) :: s.sched }

end Sys2Proof.Machine
end

