-- ==== Sys2Proof/Machine/HostProgram.lean ====
section
/-! DEFINITION. The host's program notation: wr, rd, cmd, poll and do (R151). The host is an agent outside the block, and
what stands here only says which access it makes next. -/

namespace Sys2Proof.Machine

/-- A line of a host program (R151). `pollAgain` is the inside of a poll loop: the test of the value read. -/
inductive HostOp
  | wr (off : Offset) (imm : Word)
  | rd (off : Offset)
  | cmd (i : Instr)
  | poll
  | pollAgain
  | doCmd (i : Instr)
deriving DecidableEq, Repr

/-- The host's next access and what is left of its program, given the value its last read returned; none at the end.
`poll` reads STATUS until bit 0 is 0; `do` is `cmd` and then `poll` (R151). -/
def hostNext : List HostOp → Word → Option (Access × List HostOp)
  | [], _ => none
  | .wr off imm :: rest, _ => some (.write .word off imm, rest)
  | .rd off :: rest, _ => some (.read .word off, rest)
  | .cmd i :: rest, _ => some (.write .word 0x00#8 (encode i), rest)
  | .poll :: rest, _ => some (.read .word 0x04#8, .pollAgain :: rest)
  | .pollAgain :: rest, v =>
    if v.getLsbD 0 then some (.read .word 0x04#8, .pollAgain :: rest) else hostNext rest v
  | .doCmd i :: rest, _ => some (.write .word 0x00#8 (encode i), .poll :: rest)

/-- The host's next access becomes the next turn; what is left of the program comes beside it. -/
def hostIssues (program : List HostOp) (s : State) : State × List HostOp :=
  match hostNext program s.rdata with
  | some (x, rest) => ({ s with sched := .host x :: s.sched }, rest)
  | none => (s, [])

end Sys2Proof.Machine
end

