-- ==== Sys2Proof/Safety.lean ====
section
/-! DEFINITION. What claims about runs are said in: several transitions of a command, turns that leave it alone, and the
invariants of the block. -/

namespace Sys2Proof

/-! ## Kinds of turns -/

/-- Turns that neither issue a command, nor end one by reset, nor are without a step: ticks, the sequencer's turns and
admitted reads. -/
def Turn.quiet : Turn → Bool
  | .sequencer => true
  | .tick => true
  | .reset => false
  | .host (.read size off) => Access.wellFormed (.read size off)
  | .host (.write _ _ _) => false

/-- Turns that leave the command in progress in progress: any but a reset and a host access without a step (R102,
R388). -/
def Turn.harmless : Turn → Bool
  | .sequencer => true
  | .tick => true
  | .reset => false
  | .host x => x.wellFormed

/-- Whether a command is an INIT (R144). -/
def Instr.isInit (i : Instr) : Bool := i == .initTwo || i == .initFour || i == .initRev

end Sys2Proof

namespace Sys2Proof.Machine

/-! ## Runs of one command -/

/-- `n` transitions of command `i`, each one call of its meaning. -/
def execTurns (i : Instr) : Nat → State → Result
  | 0, s => .next s
  | n + 1, s =>
    match exec i s with
    | .next t => execTurns i n t
    | .fault r => .fault r
    | .refused r => .refused r

/-- The turns that a whole command takes when no other agent comes between: its CMD write, then one sequencer step per
micro-operation (R162, R163). -/
def commandTurns (i : Instr) (m : Mode) : List Turn :=
  cmdWrite (encode i) :: List.replicate (uprog i m).length .sequencer

/-- The micro-operations of a list performed in order (R165). -/
def Block.performAll (b : Block) (ops : List MicroOp) : Block := ops.foldl Block.perform b

/-- `n` ticks of the timer unit. -/
def Block.ticks : Nat → Block → Block
  | 0, b => b
  | n + 1, b => Block.ticks n b.tick

/-- The schedule `turns` is settled next. -/
def State.withTurns (s : State) (turns : List Turn) : State := { s with sched := turns }

/-- The block less what ticks write: every PSC and CNT at 0 (R183). -/
def Block.withoutCounts (b : Block) : Block :=
  { b with aux1 := b.aux1.clearCount, pri := b.pri.clearCount, aux2 := b.aux2.clearCount }

/-! ## Protocol and fairness -/

/-- The host has kept the protocol so far: FAULTS is empty (R60). -/
def State.hostKeptProtocol (s : State) : Prop := s.block.faults = []

/-- The run of `n` steps from `s` along the schedule `sched`. -/
def State.along (s : State) (sched : Nat → Turn) (n : Nat) : Result :=
  Host.Core.run Sys2Proof.core n (s.withTurns ((List.range n).map sched))

/-- The fairness that SCHED owes the sequencer on the run from `s`, in R441's own words: if BUSY = 1 holds forever from some
point on, the sequencer takes a step after that point (log 10). -/
def weaklyFair (sched : Nat → Turn) (s : State) : Prop :=
  ∀ n, (∀ k t, n ≤ k → s.along sched k = .next t → t.block.busy = true) → ∃ k, n ≤ k ∧ sched k = .sequencer

/-! ## End states of WRITE -/

/-- The length of a WRITE's micro-program on an auxiliary-routed channel, by its path (R167). -/
def auxiliaryLength (code : Code) : Nat :=
  if code = 0xFFFF#16 then 4
  else if code = 0x0000#16 then 9
  else if (encodeDuty code).high = 0#8 ∨ (encodeDuty code).low = 0#8 then 11
  else 6

/-- The table of R335: what a WRITE to an auxiliary-routed channel makes of the block `b`, with TH, TL the timers of the
two halves and s the channel's sub-channel. Everything R335 does not list is unchanged. -/
structure AuxiliaryWriteEnd (b b' : Block) (ch : Channel) (code : Code) : Prop where
  comHigh : b'.com (timerHigh b.mode) (channelSub ch) =
    if code = 0xFFFF#16 ∨ code = 0x0000#16 ∨ (encodeDuty code).high = 0#8 then comOff else comNoninv
  comLow : b'.com (timerLow b.mode) (channelSub ch) =
    if code = 0xFFFF#16 ∨ code = 0x0000#16 ∨ (encodeDuty code).low = 0#8 then comOff else comInv
  lvlHigh : pinBit b'.lvl (pinHigh b.mode ch) =
    if code = 0xFFFF#16 then true
    else if code = 0x0000#16 ∨ (encodeDuty code).high = 0#8 ∨ (encodeDuty code).low = 0#8 then false
    else pinBit b.lvl (pinHigh b.mode ch)
  lvlLow : pinBit b'.lvl (pinLow b.mode ch) =
    if code = 0xFFFF#16 ∨ code = 0x0000#16 ∨ (encodeDuty code).high = 0#8 ∨ (encodeDuty code).low = 0#8 then true
    else pinBit b.lvl (pinLow b.mode ch)
  ocrHigh : b'.ocr (timerHigh b.mode) (channelSub ch) =
    if code = 0xFFFF#16 ∨ code = 0x0000#16 ∨ (encodeDuty code).high = 0#8 then
      b.ocr (timerHigh b.mode) (channelSub ch)
    else ((encodeDuty code).high - 1#8).setWidth 16
  ocrLow : b'.ocr (timerLow b.mode) (channelSub ch) =
    if code = 0xFFFF#16 ∨ code = 0x0000#16 ∨ (encodeDuty code).low = 0#8 then
      b.ocr (timerLow b.mode) (channelSub ch)
    else ((encodeDuty code).low - 1#8).setWidth 16
  savedCom : b'.savedCom =
    if code = 0xFFFF#16 then b.savedCom
    else if code = 0x0000#16 ∨ (encodeDuty code).high = 0#8 then comOff
    else if (encodeDuty code).low = 0#8 then b.com (timerHigh b.mode) (channelSub ch)
    else b.savedCom
  dir : ∀ p, pinBit b'.dir p = true ↔ pinBit b.dir p = true ∨ p = pinHigh b.mode ch ∨ p = pinLow b.mode ch
  wgm : ∀ t, b'.wgm t = if t = .pri ∨ code = 0xFFFF#16 ∨ code = 0x0000#16 then b.wgm t else wgmFpwm8
  cs : ∀ t, b'.cs t =
    if t = .pri ∨ code = 0xFFFF#16 ∨ code = 0x0000#16 then b.cs t else csOfRole (role b.mode t)
  otherSub : ∀ t s, t = .pri ∨ s ≠ channelSub ch → b'.com t s = b.com t s ∧ b'.ocr t s = b.ocr t s
  otherLvl : ∀ p, p ≠ pinHigh b.mode ch → p ≠ pinLow b.mode ch → pinBit b'.lvl p = pinBit b.lvl p
  counts : ∀ t, b'.cnt t = b.cnt t ∧ b'.psc t = b.psc t
  status : b'.busy = false ∧ b'.initDone = b.initDone ∧ b'.mode = b.mode ∧ b'.halt = b.halt ∧ b'.psrst = b.psrst
  results : b'.encLow = b.encLow ∧ b'.encHigh = b.encHigh ∧ b'.encFullOff = b.encFullOff
    ∧ b'.encFullOn = b.encFullOn ∧ b'.qIsHigh = b.qIsHigh
  rest : b'.priTop = b.priTop ∧ b'.faults = b.faults ∧ b'.cmdreg = encode (.write ch code)
    ∧ b'.upc = BitVec.ofNat 4 (auxiliaryLength code)

/-! ## Invariants of the block -/

/-- The command `i` is in progress. -/
def Block.running (b : Block) (i : Instr) : Prop := b.busy = true ∧ decode b.cmdreg = .command i

/-- R32, with UPC never past the end: CMDREG holds a command, and BUSY = 1 exactly when UPC is inside its
micro-program. -/
def Block.sequencerOk (b : Block) : Prop :=
  ∃ i, decode b.cmdreg = .command i ∧ b.upc.toNat ≤ (uprog i b.mode).length
    ∧ (b.busy = true ↔ b.upc.toNat < (uprog i b.mode).length)

/-- FAULTS is in canonical form: strictly rising (log 6). -/
def Block.faultsSorted (b : Block) : Prop := b.faults.Pairwise fun f g => f.key < g.key

/-- The values the block gives a compare-output mode: never the reserved 01 (R51). -/
def comLegal (v : BitVec 2) : Prop := v ≠ 1#2

/-- The values the block gives the registers of an auxiliary timer (R49 to R52). -/
def auxLegal (r : TimerRegs 8) : Prop :=
  (r.wgm = wgmNormal ∨ r.wgm = wgmFpwm8) ∧ (r.cs = csNone ∨ r.cs = csDiv1 ∨ r.cs = csDiv256)
    ∧ comLegal r.coma ∧ comLegal r.comb ∧ r.ocra ≠ 0xFF#8 ∧ r.ocrb ≠ 0xFF#8

/-- The values the block gives the registers of PRI (R49 to R52, R54). -/
def priLegal (r : TimerRegs 16) (top : BitVec 16) : Prop :=
  (r.wgm = wgmNormal ∨ r.wgm = wgmFpwmTop) ∧ (r.cs = csNone ∨ r.cs = csDiv1)
    ∧ comLegal r.coma ∧ comLegal r.comb ∧ r.ocra ≠ 0xFFFF#16 ∧ r.ocrb ≠ 0xFFFF#16 ∧ (top = 0x0000#16 ∨ top = 0xFFFF#16)

/-- No register holds a value that no rule writes (R49 to R52, R54, R59; 93 U5). -/
def Block.fieldsLegal (b : Block) : Prop :=
  auxLegal b.aux1 ∧ auxLegal b.aux2 ∧ priLegal b.pri b.priTop ∧ comLegal b.savedCom

/-- PRI holds what CONFIG gives it (R281, R285). -/
def Block.priConfigured (b : Block) : Prop :=
  b.pri.wgm = wgmFpwmTop ∧ b.pri.cs = csDiv1 ∧ b.priTop = 0xFFFF#16

/-- An auxiliary timer holds what CONFIG gives it by its role (R281). -/
def Block.auxConfigured (b : Block) (t : Timer) : Prop :=
  b.wgm t = wgmFpwm8 ∧ b.cs t = csOfRole (role b.mode t)

/-- A timer that no CONFIG has reached and that stands at 0 (R185, R222: the auxiliary timers in mode TWO). -/
def Block.auxStopped (b : Block) (t : Timer) : Prop := b.cs t = csNone ∧ b.cnt t = 0#16 ∧ b.psc t = 0#8

/-- Every counter and every divider is 0 (R227). -/
def Block.countsZero (b : Block) : Prop := ∀ t, b.cnt t = 0#16 ∧ b.psc t = 0#8

/-- The phase relation of R185: TL counts the low byte of PRI's count, TH its high byte, TH's divider the low byte again,
and the other dividers stay 0. -/
def Block.phaseLocked (b : Block) : Prop :=
  b.psc .pri = 0#8 ∧ b.psc (timerLow b.mode) = 0#8 ∧ b.cnt (timerLow b.mode) = b.pri.cnt &&& 0x00FF#16
    ∧ b.cnt (timerHigh b.mode) = b.pri.cnt >>> 8 ∧ b.psc (timerHigh b.mode) = b.pri.cnt.setWidth 8

/-- The timers as a completed synchronization leaves them and keeps them: configured by the mode and in phase (R185,
R222, R230, R433). -/
def Block.timersSynced (b : Block) : Prop :=
  b.priConfigured ∧
    if fourChannel b.mode then b.auxConfigured .aux1 ∧ b.auxConfigured .aux2 ∧ b.phaseLocked
    else b.psc .pri = 0#8 ∧ b.auxStopped .aux1 ∧ b.auxStopped .aux2

/-- The INIT command of a mode (R221); UNSET has none. -/
def initCommand : Mode → Option Instr
  | .unset => none
  | .two => some .initTwo
  | .four => some .initFour
  | .rev => some .initRev

/-- Before SET_MODE: every timer and pin register at its reset value, INIT at most just issued, no WRITE in progress
(R424; log 14). -/
def Block.beforeInit (b : Block) : Prop :=
  b.initDone = false ∧ b.halt = false ∧ b.psrst = false
    ∧ b.aux1 = TimerRegs.reset 8 ∧ b.pri = TimerRegs.reset 16 ∧ b.aux2 = TimerRegs.reset 8 ∧ b.priTop = 0#16
    ∧ b.dir = 0#6 ∧ b.lvl = 0#6
    ∧ (∀ i, b.running i → i.isInit = true → b.upc = 0#4)
    ∧ (∀ ch code, ¬ b.running (.write ch code))

/-- Between SET_MODE and INIT_FINISH: INIT of this mode is in progress, and UPC tells what it has done (R222, R225 to
R230, R424; log 14). With n micro-operations, HALT is 1 exactly after the (n-3)-rd and the (n-2)-nd. -/
def Block.duringInit (b : Block) : Prop :=
  ∃ i, initCommand b.mode = some i ∧ b.running i ∧ b.initDone = false ∧ b.dir = 0#6 ∧ b.lvl = 0#6
    ∧ 1 ≤ b.upc.toNat
    ∧ (2 ≤ b.upc.toNat → b.priConfigured)
    ∧ (if fourChannel b.mode then
        (3 ≤ b.upc.toNat → b.auxConfigured .aux1) ∧ (4 ≤ b.upc.toNat → b.auxConfigured .aux2)
      else b.auxStopped .aux1 ∧ b.auxStopped .aux2)
    ∧ (b.halt = true ↔ b.upc.toNat + 3 = (uprog i b.mode).length ∨ b.upc.toNat + 2 = (uprog i b.mode).length)
    ∧ b.psrst = b.halt
    ∧ (b.upc.toNat + 2 = (uprog i b.mode).length → b.countsZero)
    ∧ (b.upc.toNat + 1 = (uprog i b.mode).length → b.timersSynced)

/-- After INIT_FINISH: no halt or prescaler reset is pending, no INIT is in progress, and the timers are in phase (R228,
R230, R231, R433). -/
def Block.afterInit (b : Block) : Prop :=
  b.initDone = true ∧ b.halt = false ∧ b.psrst = false ∧ (∀ i, b.running i → i.isInit = false) ∧ b.timersSynced

/-- Where the block stands with respect to INIT, by its mode and INIT_DONE. -/
def Block.initStage (b : Block) : Prop :=
  if b.mode = .unset then b.beforeInit else if b.initDone then b.afterInit else b.duringInit

/-- What holds of the sequencer and of INIT's progress in every state a run from reset reaches (R32, R185, R230, R424). -/
def Block.bootInvariant (b : Block) : Prop := b.sequencerOk ∧ b.initStage

end Sys2Proof.Machine
end

