-- ==== Sys2Proof/Certificates/Slice0/Obligations.lean ====
section
/-! DEFINITION. The statements about the machine that are put to the provers. `cmdWrite w` is the turn of a host write of
`w` to CMD; a hypothesis `s.sched = turn :: rest` says which transition comes next, and nothing else about SCHED. -/

open Sys2Proof Sys2Proof.Machine

/-! ## Command words (file 30) -/

/-- R148, with R149: the word of every command decodes to that command. -/
def Obligations.DecodeReadsBackEveryEncodedCommand : Prop :=
  ∀ i : Instr, i.wellFormed = true → decode (encode i) = .command i

/-- Every command has one word only: what decodes to it is its encoding, so no bit of a word is dropped. -/
def Obligations.EveryCommandHasOneWord : Prop :=
  ∀ (w : Word) (i : Instr), decode w = .command i → encode i = w

/-- R142, R143: the words of each row of the opcode table, by its fixed bits, are those that decode to its command, with
the operands taken from their fields as they stand. -/
def Obligations.WordsOfATableRowDecodeToItsCommand : Prop :=
  ∀ w : Word,
    (w &&& 0xFFFFFFFF#32 = 0x00000000#32 ↔ decode w = .command .nop) ∧
    (w &&& 0xFFFFFFFF#32 = 0x10010000#32 ↔ decode w = .command .initTwo) ∧
    (w &&& 0xFFFFFFFF#32 = 0x10020000#32 ↔ decode w = .command .initFour) ∧
    (w &&& 0xFFFFFFFF#32 = 0x10030000#32 ↔ decode w = .command .initRev) ∧
    (w &&& 0xFFFC0000#32 = 0x20000000#32 ↔
      ∃ ch : Channel, ch.bits = w.extractLsb' 16 2 ∧ decode w = .command (.write ch (w.extractLsb' 0 16))) ∧
    (w &&& 0xFFFF0000#32 = 0x30000000#32 ↔ decode w = .command (.encode (w.extractLsb' 0 16))) ∧
    (w &&& 0xFFFBFFFF#32 = 0x40000000#32 ↔
      ∃ half : Half, half.bit = w.extractLsb' 18 1 ∧ decode w = .command (.ishighAux1 half)) ∧
    (w &&& 0xFFFBFFFF#32 = 0x40010000#32 ↔
      ∃ half : Half, half.bit = w.extractLsb' 18 1 ∧ decode w = .command (.ishighPri half)) ∧
    (w &&& 0xFFFBFFFF#32 = 0x40020000#32 ↔
      ∃ half : Half, half.bit = w.extractLsb' 18 1 ∧ decode w = .command (.ishighAux2 half))

/-- R148 with R142, R145, R146: which words are reserved, and as what, in the order of the checks. -/
def Obligations.ReservedWordsAreThoseTheRulesName : Prop :=
  ∀ w : Word,
    (decode w = .reservedOpcode ↔ 5 ≤ (w.extractLsb' 28 4).toNat) ∧
    (decode w = .reservedField ↔
      (w.extractLsb' 28 4 = 0#4 ∧ w &&& 0x0FFFFFFF#32 ≠ 0#32) ∨
      (w.extractLsb' 28 4 = 1#4 ∧ (w &&& 0x0FFCFFFF#32 ≠ 0#32 ∨ w.extractLsb' 16 2 = 0#2)) ∨
      (w.extractLsb' 28 4 = 2#4 ∧ w &&& 0x0FFC0000#32 ≠ 0#32) ∨
      (w.extractLsb' 28 4 = 3#4 ∧ w &&& 0x0FFF0000#32 ≠ 0#32) ∨
      (w.extractLsb' 28 4 = 4#4 ∧ (w &&& 0x0FF8FFFF#32 ≠ 0#32 ∨ w.extractLsb' 16 2 = 3#2)))

/-- The worked encodings of R166, written out from the format of R141. -/
def Obligations.WorkedEncodingsDecode : Prop :=
  decode 0x00000000#32 = .command .nop ∧ decode 0x10020000#32 = .command .initFour ∧
  decode 0x10030000#32 = .command .initRev ∧ decode 0x20000100#32 = .command (.write .ch0A 0x0100#16) ∧
  decode 0x2003FFFF#32 = .command (.write .ch1B 0xFFFF#16) ∧ decode 0x300000FF#32 = .command (.encode 0x00FF#16) ∧
  decode 0x40040000#32 = .command (.ishighAux1 .high) ∧ decode 0x40020000#32 = .command (.ishighAux2 .low) ∧
  decode 0x20010000#32 = .command (.pseudoOff .ch0B) ∧ decode 0x50000000#32 = .reservedOpcode ∧
  decode 0x10000000#32 = .reservedField ∧ decode 0x20040000#32 = .reservedField ∧
  decode 0x40030000#32 = .reservedField ∧ decode 0x30010000#32 = .reservedField

/-! ## Steps and commands -/

/-- A step runs the decoded command: at a CMD write the one its word decodes to (R162), at an enabled sequencer's turn
the one CMDREG decodes to (R163); with nothing settled SCHED chooses the turn (the model's form of R9, log 1). -/
def Obligations.StepRunsTheDecodedCommand : Prop :=
  ∀ (s : State) (i : Instr) (w : Word) (rest : List Turn),
    (s.sched = cmdWrite w :: rest → decode w = .command i → step s = exec i s) ∧
    (s.sched = .sequencer :: rest → s.block.busy = true → decode s.block.cmdreg = .command i → step s = exec i s) ∧
    (s.sched = [] → step s = step { s with sched := [Config.sched s.slot], slot := s.slot + 1 }) ∧
    (i.wellFormed = true → step (s.withFetchWord 32 (encode i).toNat) = exec i (s.withFetchWord 32 (encode i).toNat))

/-- R162: a CMD write is one transition; with the conditions of R381 in their order, it raises one fault and changes no
other state, or it is accepted and changes CMDREG, UPC and BUSY alone. -/
def Obligations.CommandIssueFollowsTheAcceptanceCheck : Prop :=
  ∀ (s : State) (w : Word) (rest : List Turn), s.sched = cmdWrite w :: rest →
    (s.block.busy = true → step s = .next { s with sched := rest, block := s.block.raise .cmdBusy w }) ∧
    (s.block.busy = false →
      (decode w = .reservedOpcode →
        step s = .next { s with sched := rest, block := s.block.raise .reservedOpcode w }) ∧
      (decode w = .reservedField →
        step s = .next { s with sched := rest, block := s.block.raise .reservedField w }) ∧
      (∀ i, decode w = .command i → i.isInit = true → s.block.mode ≠ .unset →
        step s = .next { s with sched := rest, block := s.block.raise .reinit w }) ∧
      (∀ ch code, decode w = .command (.write ch code) → s.block.initDone = false →
        step s = .next { s with sched := rest, block := s.block.raise .writeBeforeInit w }) ∧
      (∀ i, decode w = .command i → (i.isInit = true → s.block.mode = .unset) →
        (∀ ch code, i = .write ch code → s.block.initDone = true) →
        step s = .next { s with sched := rest, block :=
          { s.block with cmdreg := w, upc := 0#4, busy := decide (0 < (uprog i s.block.mode).length) } }))

/-- R380: raising a fault changes FAULTS alone, and adds to it exactly the pair (code, info). -/
def Obligations.RaisingAFaultAddsOnePairAndNothingElse : Prop :=
  ∀ (b : Block) (code : FaultCode) (info : Word),
    b.raise code info = { b with faults := (b.raise code info).faults } ∧
    ∀ f : ModelFault, f ∈ (b.raise code info).faults ↔ f = { code := code, info := info } ∨ f ∈ b.faults

/-- R380: a turn that adds a fault to FAULTS is a host access, adds that one pair, and has no other effect on the block; a
bad read returns 0. -/
def Obligations.ATurnThatAddsAFaultHasNoOtherEffect : Prop :=
  ∀ (s t : State) (turn : Turn) (rest : List Turn) (f : ModelFault), s.sched = turn :: rest → step s = .next t →
    f ∈ t.block.faults → f ∉ s.block.faults →
    (∃ x : Access, turn = .host x) ∧ t.block = { s.block with faults := t.block.faults } ∧
    (∀ g : ModelFault, g ∈ t.block.faults ↔ g = f ∨ g ∈ s.block.faults) ∧ t.sched = rest ∧ t.slot = s.slot ∧
    (∀ size off, turn = .host (.read size off) → t.rdata = 0#32)

/-- R220: NOP completes at its acceptance: CMDREG and UPC are set, BUSY stays 0, nothing else changes. -/
def Obligations.NopCompletesAtItsAcceptance : Prop :=
  ∀ (s : State) (rest : List Turn), s.sched = cmdWrite 0x00000000#32 :: rest → s.block.busy = false →
    exec .nop s =
      .next { s with sched := rest, block := { s.block with cmdreg := 0x00000000#32, upc := 0#4, busy := false } }

/-- R162 for every command, of each family: with the sequencer idle, INIT in mode UNSET only and WRITE after INIT only,
its CMD write is accepted: CMDREG, UPC and BUSY are written and nothing else. -/
def Obligations.EveryCommandIsAcceptedWhenItsChecksPass : Prop :=
  ∀ (i : Instr) (s : State) (rest : List Turn), s.sched = cmdWrite (encode i) :: rest → s.block.busy = false →
    (i.isInit = true → s.block.mode = .unset) → (∀ ch code, i = .write ch code → s.block.initDone = true) →
    exec i s = .next { s with sched := rest, block :=
      { s.block with cmdreg := encode i, upc := 0#4, busy := decide (0 < (uprog i s.block.mode).length) } }

/-- R163: with BUSY = 1 a sequencer step of any command performs the micro-operation at UPC and nothing else, moves UPC on
by one, and clears BUSY after the last; the command is the one CMDREG decodes to. With BUSY = 0 the step is not enabled:
the turn passes without effect (how the model words that is log 4). -/
def Obligations.SequencerTurnPerformsOneMicroOperation : Prop :=
  ∀ (i : Instr) (op : MicroOp) (s : State) (rest : List Turn), s.sched = .sequencer :: rest →
    (s.block.busy = true → (uprog i s.block.mode)[s.block.upc.toNat]? = some op →
      exec i s = .next { s with sched := rest, block :=
        { s.block.perform op with
          upc := BitVec.ofNat 4 (s.block.upc.toNat + 1),
          busy := decide (s.block.upc.toNat + 1 ≠ (uprog i s.block.mode).length) } } ∧
      (decode s.block.cmdreg = .command i → step s = exec i s)) ∧
    (s.block.busy = false → exec i s = .next { s with sched := rest } ∧ step s = .next { s with sched := rest })

/-- R162, R163, R165 for every command: accepted, and then run by sequencer turns alone, it performs exactly its
micro-program in order, ends idle with UPC at the length, and changes nothing that its micro-operations do not. -/
def Obligations.EveryAcceptedCommandRunsItsMicroProgram : Prop :=
  ∀ (i : Instr) (s : State) (rest : List Turn), s.block.busy = false →
    (i.isInit = true → s.block.mode = .unset) → (∀ ch code, i = .write ch code → s.block.initDone = true) →
    s.sched = commandTurns i s.block.mode ++ rest →
    execTurns i (commandTurns i s.block.mode).length s =
        .next { s with sched := rest, block :=
          { s.block.performAll (uprog i s.block.mode) with
            cmdreg := encode i, upc := BitVec.ofNat 4 (uprog i s.block.mode).length, busy := false } } ∧
    Host.Core.run Sys2Proof.core (commandTurns i s.block.mode).length s =
      execTurns i (commandTurns i s.block.mode).length s

/-- The inverse of acceptance for INIT and WRITE: where they are turned away, they have none of their effect (R221,
R320, R380). -/
def Obligations.InitAndWriteAreTurnedAwayWithoutEffect : Prop :=
  ∀ (s : State) (rest : List Turn) (w : Word), s.sched = cmdWrite w :: rest → s.block.busy = false →
    (s.block.mode ≠ .unset → ∀ i, i.isInit = true → encode i = w →
      exec i s = .next { s with sched := rest, block := s.block.raise .reinit w }) ∧
    (s.block.initDone = false → ∀ ch code, encode (.write ch code) = w →
      exec (.write ch code) s = .next { s with sched := rest, block := s.block.raise .writeBeforeInit w })

/-! ## INIT and the synchronizer (file 41) -/

/-- R221, R222 with the values of R281: each INIT, run from its acceptance by its own turns, ends with the mode set, the
timers of the mode configured, every counter and divider 0, SYNCCTL clear and INIT_DONE set; no compare register, COM
field or pin register is written, nor anything else. -/
def Obligations.InitEndsConfiguredAndSynchronized : Prop :=
  ∀ (s : State) (rest : List Turn), s.block.busy = false → s.block.mode = .unset →
    (s.sched = commandTurns .initTwo .unset ++ rest →
      execTurns .initTwo 7 s = .next { s with sched := rest, block :=
        { s.block with
          cmdreg := 0x10010000#32, upc := 6#4, busy := false, initDone := true, mode := .two,
          halt := false, psrst := false, priTop := 0xFFFF#16,
          pri := { s.block.pri with wgm := 2#2, cs := 1#3, cnt := 0#16, psc := 0#8 },
          aux1 := { s.block.aux1 with cnt := 0#8, psc := 0#8 },
          aux2 := { s.block.aux2 with cnt := 0#8, psc := 0#8 } } }) ∧
    (s.sched = commandTurns .initFour .unset ++ rest →
      execTurns .initFour 9 s = .next { s with sched := rest, block :=
        { s.block with
          cmdreg := 0x10020000#32, upc := 8#4, busy := false, initDone := true, mode := .four,
          halt := false, psrst := false, priTop := 0xFFFF#16,
          pri := { s.block.pri with wgm := 2#2, cs := 1#3, cnt := 0#16, psc := 0#8 },
          aux1 := { s.block.aux1 with wgm := 1#2, cs := 1#3, cnt := 0#8, psc := 0#8 },
          aux2 := { s.block.aux2 with wgm := 1#2, cs := 2#3, cnt := 0#8, psc := 0#8 } } }) ∧
    (s.sched = commandTurns .initRev .unset ++ rest →
      execTurns .initRev 9 s = .next { s with sched := rest, block :=
        { s.block with
          cmdreg := 0x10030000#32, upc := 8#4, busy := false, initDone := true, mode := .rev,
          halt := false, psrst := false, priTop := 0xFFFF#16,
          pri := { s.block.pri with wgm := 2#2, cs := 1#3, cnt := 0#16, psc := 0#8 },
          aux1 := { s.block.aux1 with wgm := 1#2, cs := 2#3, cnt := 0#8, psc := 0#8 },
          aux2 := { s.block.aux2 with wgm := 1#2, cs := 1#3, cnt := 0#8, psc := 0#8 } } })

/-- R230: whatever number of ticks falls between its micro-operations, the synchronizer leaves every counter and divider
at 0 and SYNCCTL at 0 immediately after SYNC_RELEASE. -/
def Obligations.SynchronizerLeavesEveryCounterZero : Prop :=
  ∀ (b : Block) (m n k : Nat),
    let b' := (Block.ticks k ((Block.ticks n ((Block.ticks m b).perform .syncHalt)).perform .syncClear)).perform
      .syncRelease
    b'.countsZero ∧ b'.halt = false ∧ b'.psrst = false

/-- The phase relation of R185 after N ticks from the end of a synchronization in a four-channel mode. The counting it
rests on is the spec's own ("[from general knowledge, not in source]", R184). -/
def Obligations.CountersTellTheTicksSinceSynchronization : Prop :=
  ∀ (b : Block) (n : Nat), fourChannel b.mode = true → b.priConfigured → b.auxConfigured .aux1 →
    b.auxConfigured .aux2 → b.countsZero → b.halt = false → b.psrst = false →
    ((Block.ticks n b).cnt .pri).toNat = n % 65536 ∧ (Block.ticks n b).psc .pri = 0#8 ∧
    ((Block.ticks n b).cnt (timerLow b.mode)).toNat = n % 256 ∧ (Block.ticks n b).psc (timerLow b.mode) = 0#8 ∧
    ((Block.ticks n b).cnt (timerHigh b.mode)).toNat = n / 256 % 256 ∧
    ((Block.ticks n b).psc (timerHigh b.mode)).toNat = n % 256

/-! ## The Duty Encoder (file 42) -/

/-- R255, R256: ENCODE is accepted in every mode, before and after INIT, and its one step leaves in ENCRES the bytes of
code + 1, or for the two flagged codes bytes 0x00 with one flag (R250); nothing else changes but the sequencer. ENCRES
shows them at their bits. -/
def Obligations.EncodeStoresTheEncodedCode : Prop :=
  ∀ (s : State) (code : Code) (w : Word) (rest : List Turn), w = encode (.encode code) →
    (s.sched = cmdWrite w :: rest → s.block.busy = false →
      exec (.encode code) s =
        .next { s with sched := rest, block := { s.block with cmdreg := w, upc := 0#4, busy := true } }) ∧
    (s.sched = .sequencer :: rest → s.block.busy = true → s.block.upc = 0#4 →
      let b : Block := { s.block with
        upc := 1#4, busy := false,
        encHigh := if code = 0xFFFF#16 ∨ code = 0x0000#16 then 0#8 else BitVec.ofNat 8 ((code.toNat + 1) / 256),
        encLow := if code = 0xFFFF#16 ∨ code = 0x0000#16 then 0#8 else BitVec.ofNat 8 (code.toNat + 1),
        encFullOn := decide (code = 0xFFFF#16), encFullOff := decide (code = 0x0000#16) }
      exec (.encode code) s = .next { s with sched := rest, block := b } ∧
      b.readReg .encres =
        (BitVec.ofBool b.encFullOn ++ BitVec.ofBool b.encFullOff ++ b.encHigh ++ b.encLow).setWidth 32)

/-- R257: the round-trip law, over every unflagged code. -/
def Obligations.EncodedBytesGiveBackTheCode : Prop :=
  ∀ code : Code, code ≠ 0x0000#16 → code ≠ 0xFFFF#16 →
    (encodeDuty code).high.toNat * 256 + (encodeDuty code).low.toNat - 1 = code.toNat

/-- R250 with R251: the encoder's outputs for every code: the two flagged codes with their bytes 0x00, and code + 1 split
into its two bytes for every other. -/
def Obligations.EncoderFollowsItsTable : Prop :=
  ∀ code : Code,
    (code = 0xFFFF#16 → encodeDuty code = { high := 0x00#8, low := 0x00#8, fullOn := true, fullOff := false }) ∧
    (code = 0x0000#16 → encodeDuty code = { high := 0x00#8, low := 0x00#8, fullOn := false, fullOff := true }) ∧
    (code ≠ 0xFFFF#16 → code ≠ 0x0000#16 →
      (encodeDuty code).fullOn = false ∧ (encodeDuty code).fullOff = false ∧
      (encodeDuty code).high.toNat = (code.toNat + 1) / 256 ∧ (encodeDuty code).low.toNat = (code.toNat + 1) % 256)

/-- R254: where the sentinel 0 stands: the high byte is 0 for 0x0001 to 0x00FE, the low byte for the codes that end in
FF, never both, and each byte takes every non-zero value. -/
def Obligations.ZeroBytesStandWhereTheRuleSays : Prop :=
  (∀ code : Code, code ≠ 0x0000#16 → code ≠ 0xFFFF#16 →
    ((encodeDuty code).high = 0#8 ↔ 0x0001 ≤ code.toNat ∧ code.toNat ≤ 0x00FE) ∧
    ((encodeDuty code).low = 0#8 ↔ code &&& 0x00FF#16 = 0x00FF#16) ∧
    ¬ ((encodeDuty code).high = 0#8 ∧ (encodeDuty code).low = 0#8)) ∧
  ∀ byte : Byte, byte ≠ 0#8 →
    (∃ code : Code, code ≠ 0x0000#16 ∧ code ≠ 0xFFFF#16 ∧ (encodeDuty code).high = byte) ∧
    (∃ code : Code, code ≠ 0x0000#16 ∧ code ≠ 0xFFFF#16 ∧ (encodeDuty code).low = byte)

/-! ## The Timer Configurator (file 43) -/

/-- R281, R283: all that CONFIG writes: WGM and CS always, TOP for PRI, the COM of an enabled sub-channel, by the role of
the timer; a disabled sub-channel and everything else stays. -/
def Obligations.ConfigWritesTheTimerByItsRole : Prop :=
  ∀ (b : Block) (enA enB : Bool),
    b.perform (.config .pri enA enB) = { b with
      pri := { b.pri with
        wgm := 2#2, cs := 1#3, coma := if enA then 2#2 else b.pri.coma, comb := if enB then 2#2 else b.pri.comb },
      priTop := 0xFFFF#16 } ∧
    b.perform (.config .aux1 enA enB) = { b with aux1 := { b.aux1 with
      wgm := 1#2,
      cs := if role b.mode .aux1 = .high then 2#3 else 1#3,
      coma := if enA then (if role b.mode .aux1 = .high then 2#2 else 3#2) else b.aux1.coma,
      comb := if enB then (if role b.mode .aux1 = .high then 2#2 else 3#2) else b.aux1.comb } } ∧
    b.perform (.config .aux2 enA enB) = { b with aux2 := { b.aux2 with
      wgm := 1#2,
      cs := if role b.mode .aux2 = .high then 2#3 else 1#3,
      coma := if enA then (if role b.mode .aux2 = .high then 2#2 else 3#2) else b.aux2.coma,
      comb := if enB then (if role b.mode .aux2 = .high then 2#2 else 3#2) else b.aux2.comb } }

/-- R284: a CONFIG applied twice leaves the state it leaves when applied once. -/
def Obligations.ConfigIsIdempotent : Prop :=
  ∀ (b : Block) (t : Timer) (enA enB : Bool),
    (b.perform (.config t enA enB)).perform (.config t enA enB) = b.perform (.config t enA enB)

/-! ## The Half-Role Resolver (file 44) -/

/-- R303: the eight rows of the truth table. -/
def Obligations.HalfRoleTruthTable : Prop :=
  ∀ m : Mode,
    (m ≠ .rev → isHighHalf m .aux1 .high = false ∧ isHighHalf m .aux1 .low = true ∧
      isHighHalf m .aux2 .high = true ∧ isHighHalf m .aux2 .low = false) ∧
    (m = .rev → isHighHalf m .aux1 .high = true ∧ isHighHalf m .aux1 .low = false ∧
      isHighHalf m .aux2 .high = false ∧ isHighHalf m .aux2 .low = true)

/-- R302 (its table) and the pin pairs of R42: in every mode TH plays High and TL Low, one timer each, and the pins are
those the table of R42 lists. -/
def Obligations.EveryModeHasOneTimerForEachHalf : Prop :=
  (∀ m : Mode, role m (timerHigh m) = .high ∧ role m (timerLow m) = .low ∧ timerHigh m ≠ timerLow m ∧
    timerHigh m ≠ .pri ∧ timerLow m ≠ .pri) ∧
  (timerHigh .four = .aux2 ∧ timerHigh .rev = .aux1 ∧ timerHigh .two = .aux2 ∧ timerHigh .unset = .aux2) ∧
  (pinHigh .four .ch0A = 4 ∧ pinLow .four .ch0A = 0 ∧ pinHigh .rev .ch0A = 0 ∧ pinLow .rev .ch0A = 4) ∧
  (pinHigh .four .ch0B = 5 ∧ pinLow .four .ch0B = 1 ∧ pinHigh .rev .ch0B = 1 ∧ pinLow .rev .ch0B = 5) ∧
  ∀ m : Mode, pinHigh m .ch1A = 2 ∧ pinLow m .ch1A = 2 ∧ pinHigh m .ch1B = 3 ∧ pinLow m .ch1B = 3

/-- R305, R306: ISHIGH of each timer is accepted in every mode and its one step leaves in QRES, zero-extended, the formula
of R300; nothing else changes but the sequencer. -/
def Obligations.IshighStoresTheFormulasValue : Prop :=
  ∀ (s : State) (half : Half) (rest : List Turn) (i : Instr) (t : Timer),
    (i = .ishighAux1 half ∧ t = .aux1) ∨ (i = .ishighPri half ∧ t = .pri) ∨ (i = .ishighAux2 half ∧ t = .aux2) →
    (s.sched = cmdWrite (encode i) :: rest → s.block.busy = false →
      exec i s =
        .next { s with sched := rest, block := { s.block with cmdreg := encode i, upc := 0#4, busy := true } }) ∧
    (s.sched = .sequencer :: rest → s.block.busy = true → s.block.upc = 0#4 →
      let b : Block := { s.block with
        upc := 1#4, busy := false,
        qIsHigh := (decide (t = .aux1)).xor ((decide (s.block.mode = .rev)).xor (decide (half = .high))) }
      exec i s = .next { s with sched := rest, block := b } ∧
      b.readReg .qres = (BitVec.ofBool b.qIsHigh).setWidth 32)

/-! ## The Channel Driver (file 45) -/

/-- R335: the whole effect of a WRITE to an auxiliary-routed channel in a four-channel mode, from any state, on each of
its five paths. -/
def Obligations.AuxiliaryWriteEndsAsTabulated : Prop :=
  ∀ (s : State) (ch : Channel) (code : Code) (rest : List Turn), s.block.busy = false → s.block.initDone = true →
    fourChannel s.block.mode = true → primaryRouted ch = false →
    s.sched = commandTurns (.write ch code) s.block.mode ++ rest →
    ∃ t, execTurns (.write ch code) (auxiliaryLength code + 1) s = .next t ∧
      t.sched = rest ∧ t.rdata = s.rdata ∧ t.slot = s.slot ∧ AuxiliaryWriteEnd s.block t.block ch code

/-- R336: the whole effect of a WRITE to a primary-routed channel, in every mode, on each of its three paths. The CONFIG of
the third path writes PRI's WGM, CS and TOP (R281); where PRI is configured, as INIT leaves it, they are as before, and
nothing but what R336 lists changes (log 16). -/
def Obligations.PrimaryWriteEndsAsTabulated : Prop :=
  ∀ (s : State) (ch : Channel) (code : Code) (rest : List Turn) (sub : SubChannel), s.block.busy = false →
    s.block.initDone = true → (ch = .ch1A ∧ sub = .a) ∨ (ch = .ch1B ∧ sub = .b) →
    s.sched = commandTurns (.write ch code) s.block.mode ++ rest →
    ∃ b : Block,
      execTurns (.write ch code) (commandTurns (.write ch code) s.block.mode).length s =
        .next { s with sched := rest, block := b } ∧
      (code = 0xFFFF#16 → b = { s.block with
        cmdreg := encode (.write ch code), upc := 2#4, busy := false,
        dir := setPinBit s.block.dir (pin .pri sub) true, lvl := setPinBit s.block.lvl (pin .pri sub) true,
        pri := s.block.pri.setCom sub comOff }) ∧
      (code = 0x0000#16 → b = { s.block with
        cmdreg := encode (.write ch code), upc := 2#4, busy := false,
        dir := setPinBit s.block.dir (pin .pri sub) true, lvl := setPinBit s.block.lvl (pin .pri sub) false,
        pri := s.block.pri.setCom sub comOff }) ∧
      (code ≠ 0xFFFF#16 → code ≠ 0x0000#16 → b = { s.block with
        cmdreg := encode (.write ch code), upc := 3#4, busy := false,
        dir := setPinBit s.block.dir (pin .pri sub) true, priTop := 0xFFFF#16,
        pri := (({ s.block.pri with wgm := 2#2, cs := 1#3 }).setCom sub comNoninv).setOcr sub code }) ∧
      (s.block.priConfigured →
        b.priTop = s.block.priTop ∧ b.pri.wgm = s.block.pri.wgm ∧ b.pri.cs = s.block.pri.cs)

/-- R338, and the same for any mode in which the channel is not valid (R321): a WRITE to an auxiliary-routed channel
completes at its acceptance and changes nothing but CMDREG and UPC. -/
def Obligations.WriteToAnInvalidChannelChangesNothing : Prop :=
  ∀ (s : State) (ch : Channel) (code : Code) (rest : List Turn), s.block.busy = false → s.block.initDone = true →
    ch = .ch0A ∨ ch = .ch0B → s.block.mode ≠ .four → s.block.mode ≠ .rev →
    s.sched = cmdWrite (encode (.write ch code)) :: rest →
    exec (.write ch code) s = .next { s with sched := rest, block :=
      { s.block with cmdreg := encode (.write ch code), upc := 0#4, busy := false } }

/-- R337: after a WRITE of 0x0000 to a valid channel no compare output of the channel is connected. -/
def Obligations.OffDisconnectsTheChannel : Prop :=
  ∀ (s : State) (ch : Channel) (rest : List Turn), s.block.busy = false → s.block.initDone = true →
    validChannel s.block.mode ch = true → s.sched = commandTurns (.pseudoOff ch) s.block.mode ++ rest →
    ∃ t, execTurns (.pseudoOff ch) (commandTurns (.pseudoOff ch) s.block.mode).length s = .next t ∧
      t.block.com (tmr (pinHigh s.block.mode ch)) (channelSub ch) = comOff ∧
      t.block.com (tmr (pinLow s.block.mode ch)) (channelSub ch) = comOff ∧ t.block.busy = false

/-- R167: the length of every micro-program, at most 11. -/
def Obligations.MicroProgramLengths : Prop :=
  (∀ m, (uprog .nop m).length = 0 ∧ (uprog .initTwo m).length = 6 ∧ (uprog .initFour m).length = 8 ∧
    (uprog .initRev m).length = 8) ∧
  (∀ m code half, (uprog (.encode code) m).length = 1 ∧ (uprog (.ishighAux1 half) m).length = 1 ∧
    (uprog (.ishighPri half) m).length = 1 ∧ (uprog (.ishighAux2 half) m).length = 1) ∧
  (∀ m ch code, (uprog (.write ch code) m).length =
    if validChannel m ch = false then 0
    else if primaryRouted ch then (if code = 0x0000#16 ∨ code = 0xFFFF#16 then 2 else 3)
    else if code = 0xFFFF#16 then 4
    else if code = 0x0000#16 then 9
    else if (encodeDuty code).high ≠ 0#8 ∧ (encodeDuty code).low ≠ 0#8 then 6
    else 11) ∧
  ∀ i m, (uprog i m).length ≤ 11

/-- R329: in every micro-program each WRITE_OCR comes after a CONFIG that enables its sub-channel, and each CONFIG that
enables a sub-channel comes before that sub-channel's WRITE_OCR. -/
def Obligations.ConfigurationPrecedesCompareWrites : Prop :=
  ∀ (i : Instr) (m : Mode) (k : Nat) (t : Timer),
    (∀ s v, (uprog i m)[k]? = some (.writeOcr t s v) →
      ∃ j enA enB, j < k ∧ (uprog i m)[j]? = some (.config t enA enB) ∧ (if s = .a then enA else enB) = true) ∧
    (∀ s enA enB, (uprog i m)[k]? = some (.config t enA enB) → (if s = .a then enA else enB) = true →
      ∃ j v, k < j ∧ (uprog i m)[j]? = some (.writeOcr t s v))

/-- R332: the compare values of every micro-program. -/
def Obligations.CompareValuesLieInTheirRanges : Prop :=
  ∀ (i : Instr) (m : Mode) (t : Timer) (s : SubChannel) (v : BitVec 16), .writeOcr t s v ∈ uprog i m →
    (t ≠ .pri → v.toNat ≤ 0xFE) ∧ (t = .pri → 0x0001 ≤ v.toNat ∧ v.toNat ≤ 0xFFFE)

/-- R435, R433: no micro-operation of a WRITE to one channel touches the COM, OCR, DIR or LVL of another channel, nor
any counter or divider; and with the timers as INIT left them, no CS, WGM or TOP either. -/
def Obligations.WritesDoNotDisturbOtherChannels : Prop :=
  ∀ (b : Block) (ch ch' : Channel) (code : Code) (op : MicroOp), ch' ≠ ch → op ∈ uprog (.write ch code) b.mode →
    (∀ p, p = pinHigh b.mode ch' ∨ p = pinLow b.mode ch' →
      (b.perform op).com (tmr p) (subch p) = b.com (tmr p) (subch p) ∧
      (b.perform op).ocr (tmr p) (subch p) = b.ocr (tmr p) (subch p) ∧
      pinBit (b.perform op).dir p = pinBit b.dir p ∧ pinBit (b.perform op).lvl p = pinBit b.lvl p) ∧
    (∀ t, (b.perform op).cnt t = b.cnt t ∧ (b.perform op).psc t = b.psc t) ∧
    (b.timersSynced → (b.perform op).priTop = b.priTop ∧
      ∀ t, (b.perform op).cs t = b.cs t ∧ (b.perform op).wgm t = b.wgm t)

/-! ## The latch clear (file 46) -/

/-- R367: the end state of a latch clear on any two timers, and its frame. -/
def Obligations.LatchClearEndState : Prop :=
  ∀ (b : Block) (tH tL : Timer) (s : SubChannel), tH ≠ tL →
    let b' := b.performAll (clearProgram (pin tH s) (pin tL s))
    b'.com tH s = b.com tH s ∧ pinBit b'.lvl (pin tH s) = false ∧ b'.com tL s = comOff ∧
    pinBit b'.lvl (pin tL s) = true ∧ b'.savedCom = b.com tH s ∧ b'.dir = b.dir ∧
    (∀ p, p ≠ pin tH s → p ≠ pin tL s → pinBit b'.lvl p = pinBit b.lvl p) ∧
    (∀ t s', ¬ (t = tL ∧ s' = s) → b'.com t s' = b.com t s') ∧
    ∀ t, b'.cnt t = b.cnt t ∧ b'.psc t = b.psc t ∧ b'.cs t = b.cs t ∧ b'.wgm t = b.wgm t ∧
      ∀ s', b'.ocr t s' = b.ocr t s'

/-- The table of R369: the pin levels during a latch clear, with any number of ticks after each micro-operation: pH is
held at 0, and pL shows 0 and then exactly one rise to 1. No tick moves either pin from STATIC(pH, 0) on, wherever the
ground that R369 gives holds; while pL is still connected, which it can be until STATIC(pL, 0), the tick's own rules move
it (log 15). -/
def Obligations.LatchClearPinTrace : Prop :=
  ∀ (b b1 b2 b3 b4 b5 : Block) (tH tL : Timer) (s : SubChannel) (n1 n2 n3 n4 : Nat), tH ≠ tL →
    pinBit b.dir (pin tH s) = true → pinBit b.dir (pin tL s) = true →
    b1 = b.perform (.saveCom (pin tH s)) →
    b2 = (Block.ticks n1 b1).perform (.static (pin tH s) false) →
    b3 = (Block.ticks n2 b2).perform (.static (pin tL s) false) →
    b4 = (Block.ticks n3 b3).perform (.setLvl (pin tL s) true) →
    b5 = (Block.ticks n4 b4).perform (.restoreCom (pin tH s)) →
    (b1.out (pin tH s) = b.out (pin tH s) ∧ b1.out (pin tL s) = b.out (pin tL s)) ∧
    ((∀ n, (Block.ticks n b2).out (pin tH s) = false) ∧ b2.out (pin tL s) = (Block.ticks n1 b1).out (pin tL s) ∧
      (b.com tL s ≠ 2#2 → b.com tL s ≠ 3#2 → ∀ n, (Block.ticks n b2).out (pin tL s) = b2.out (pin tL s))) ∧
    (∀ n, (Block.ticks n b3).out (pin tH s) = false ∧ (Block.ticks n b3).out (pin tL s) = false) ∧
    (∀ n, (Block.ticks n b4).out (pin tH s) = false ∧ (Block.ticks n b4).out (pin tL s) = true) ∧
    (b5.out (pin tH s) = (b5.wave tH s).getD false ∧ b5.com tH s = b.com tH s ∧
      ∀ n, (Block.ticks n b5).out (pin tL s) = true)

/-- R365: a micro-program holds a latch clear only if it is a WRITE's to an auxiliary-routed channel on one of the two
paths, and then once. -/
def Obligations.LatchClearRunsOnItsTwoPathsOnly : Prop :=
  ∀ (i : Instr) (m : Mode),
    ((uprog i m).countP fun op => match op with | .saveCom _ => true | _ => false) =
      match i with
      | .write ch code =>
        if validChannel m ch = true ∧ primaryRouted ch = false ∧ code ≠ 0xFFFF#16 ∧
            ((encodeDuty code).high = 0#8 ∨ (encodeDuty code).low = 0#8) then 1
        else 0
      | _ => 0

/-! ## The timer unit and the pins (file 40) -/

/-- R183's frame and its corner cases, each tick a step of the machine: a tick writes PSC and CNT alone, and neither
while HALT = 1. The divider and counting arithmetic is the spec's own ("[from general knowledge, not in source]"). -/
def Obligations.TickAdvancesDividersAndCounters : Prop :=
  ∀ (s : State) (rest : List Turn), s.sched = .tick :: rest →
    ∃ b : Block, step s = .next { s with sched := rest, block := b } ∧
      b.withoutCounts = s.block.withoutCounts ∧
      (s.block.halt = true → b = s.block) ∧
      (s.block.halt = false → ∀ (t : Timer) (advanced : Nat),
        advanced = (if t = .pri then
            if s.block.pri.cnt = (if s.block.pri.wgm = 1#2 then 0x00FF#16
              else if s.block.pri.wgm = 2#2 then s.block.priTop else 0xFFFF#16) then 0
            else (s.block.pri.cnt.toNat + 1) % 65536
          else ((s.block.cnt t).toNat + 1) % 256) →
        (s.block.cs t ≠ 1#3 ∧ s.block.cs t ≠ 2#3 → b.cnt t = s.block.cnt t ∧ b.psc t = s.block.psc t) ∧
        (s.block.cs t = 1#3 ∨ s.block.cs t = 2#3 → s.block.psrst = true →
          b.psc t = 0#8 ∧ b.cnt t = s.block.cnt t) ∧
        (s.block.cs t = 1#3 → s.block.psrst = false → b.psc t = 0#8 ∧ (b.cnt t).toNat = advanced) ∧
        (s.block.cs t = 2#3 → s.block.psrst = false → (b.psc t).toNat = ((s.block.psc t).toNat + 1) % 256 ∧
          if s.block.psc t = 0xFF#8 then (b.cnt t).toNat = advanced else b.cnt t = s.block.cnt t))

/-- R434: no micro-operation reads CNT or PSC, so a tick before it changes nothing of what it does, counters apart. -/
def Obligations.MicroOperationsDoNotReadCounters : Prop :=
  ∀ (b : Block) (op : MicroOp),
    (b.tick.perform op).withoutCounts = (b.perform op).withoutCounts ∧
    (b.withoutCounts.perform op).withoutCounts = (b.perform op).withoutCounts ∧
    (op ≠ .syncClear → ∀ t, (b.perform op).cnt t = b.cnt t ∧ (b.perform op).psc t = b.psc t)

/-- R188 with R57: what each pin shows, and PINOUT, whose other bits read 0. The level while the compare output is connected
is that of R187: 1 exactly while CNT is at most OCR for NONINV, the complement for INV, a comparison that is the spec's own
("[from general knowledge, not in source]", R187; log 18). -/
def Obligations.PinsShowWaveOrStaticLevel : Prop :=
  ∀ (b : Block) (t : Timer) (s : SubChannel),
    b.outputEnable (pin t s) = pinBit b.dir (pin t s) ∧
    (pinBit b.dir (pin t s) = false → b.out (pin t s) = false) ∧
    (pinBit b.dir (pin t s) = true → b.com t s = 2#2 ∨ b.com t s = 3#2 → b.wave t s = some (b.out (pin t s))) ∧
    (b.com t s = 2#2 → b.wave t s = some (decide ((b.cnt t).toNat ≤ (b.ocr t s).toNat))) ∧
    (b.com t s = 3#2 → b.wave t s = some (decide ((b.ocr t s).toNat < (b.cnt t).toNat))) ∧
    (pinBit b.dir (pin t s) = true → b.com t s ≠ 2#2 → b.com t s ≠ 3#2 → b.out (pin t s) = pinBit b.lvl (pin t s)) ∧
    (b.readReg .pinout).getLsbD (pin t s).val = b.out (pin t s) ∧
    (b.readReg .pinout).getLsbD (8 + (pin t s).val) = b.outputEnable (pin t s) ∧
    b.readReg .pinout &&& 0xFFFFC0C0#32 = 0#32

/-- The waveform of R187 and the duty of R189 for one register set of any width: over the counts 0 to top, a
non-inverting output is 1 for v + 1 of them and an inverting one for top - v. The comparison is the spec's own ("[from
general knowledge, not in source]", R187). -/
def Obligations.DutyOfOneSubChannel : Prop :=
  ∀ (w : Nat) (r : TimerRegs w) (s : SubChannel) (top : Nat), top < 2 ^ w → (r.ocr s).toNat ≤ top →
    (r.com s = 2#2 →
      ((List.range (top + 1)).countP fun c => ({ r with cnt := BitVec.ofNat w c }).wave s == some true)
        = (r.ocr s).toNat + 1) ∧
    (r.com s = 3#2 →
      ((List.range (top + 1)).countP fun c => ({ r with cnt := BitVec.ofNat w c }).wave s == some true)
        = top - (r.ocr s).toNat)

/-! ## The host bus (file 20) -/

/-- R101: every register is mapped at its offset, written out, and nothing else is; the offsets of the registers' own rules
(R44 to R57) are the same. -/
def Obligations.AddressMapHoldsEveryRegisterOnce : Prop :=
  ∀ (off : Offset) (r : Reg), (regAt off = some r ↔ off.toNat = r.offset) ∧
    r.offset =
      match r with
      | .cmd => 0x00 | .status => 0x04 | .encres => 0x08 | .qres => 0x0C | .syncctl => 0x10
      | .ctrl .aux1 => 0x20 | .ocr .aux1 .a => 0x24 | .ocr .aux1 .b => 0x28 | .cnt .aux1 => 0x2C | .psc .aux1 => 0x34
      | .ctrl .pri => 0x40 | .ocr .pri .a => 0x44 | .ocr .pri .b => 0x48 | .cnt .pri => 0x4C | .psc .pri => 0x54
      | .ctrl .aux2 => 0x60 | .ocr .aux2 .a => 0x64 | .ocr .aux2 .b => 0x68 | .cnt .aux2 => 0x6C | .psc .aux2 => 0x74
      | .top => 0x50 | .pinctl => 0x80 | .pinout => 0x84

/-- R104: an admitted read returns the register at the offset and changes no state of the block; at an unmapped offset
it returns 0 and raises BAD_ACCESS. -/
def Obligations.HostReadReturnsTheRegister : Prop :=
  ∀ (s : State) (off : Offset) (rest : List Turn), s.sched = .host (.read .word off) :: rest → off.toNat % 4 = 0 →
    (∀ r, regAt off = some r → step s = .next { s with sched := rest, rdata := s.block.readReg r }) ∧
    (regAt off = none → step s = .next
      { s with sched := rest, rdata := 0#32, block := s.block.raise .badAccess (off.setWidth 32) })

/-- R106: two reads of an offset with no other transition between them return the same value. -/
def Obligations.HostReadsAreIdempotent : Prop :=
  ∀ (s t u : State) (off : Offset) (rest : List Turn),
    s.sched = .host (.read .word off) :: .host (.read .word off) :: rest → step s = .next t → step t = .next u →
    u.rdata = t.rdata ∧ u.block = t.block ∧ u.rdata = s.block.hostReads off

/-- R105, R107: an admitted write anywhere but at CMD is ignored and raises BAD_ACCESS, whether the offset is a
read-only register or unmapped. -/
def Obligations.HostCannotWriteRegistersDirectly : Prop :=
  ∀ (s : State) (off : Offset) (v : Word) (rest : List Turn), s.sched = .host (.write .word off v) :: rest →
    off.toNat % 4 = 0 → off ≠ 0x00#8 →
    step s = .next { s with sched := rest, block := s.block.raise .badAccess (off.setWidth 32) }

/-- R102: the one refusal of the machine: a step is refused exactly when the next turn is an access that is misaligned
or not 32 bits wide. -/
def Obligations.OnlyUnadmittedAccessesAreRefused : Prop :=
  ∀ (s : State) (turn : Turn) (rest : List Turn) (r : Refusal), s.sched = turn :: rest →
    (step s = .refused r ↔
      r = .unadmittedAccess ∧ ∃ x : Access, turn = .host x ∧ ¬ (x.size = .word ∧ x.off.toNat % 4 = 0))

/-- R43 to R56: the bit positions of the fields of every host-readable register but PINOUT, with MODE's codes written out,
every other bit 0. -/
def Obligations.RegisterFieldsStandAtTheirBits : Prop :=
  ∀ (b : Block) (t : Timer),
    ((b.readReg .status).getLsbD 0 = b.busy ∧ (b.readReg .status).getLsbD 1 = b.initDone ∧
      (b.readReg .status).extractLsb' 4 2 =
        (match b.mode with | .unset => 0#2 | .two => 1#2 | .four => 2#2 | .rev => 3#2) ∧ b.readReg .status &&& 0xFFFFFFCC#32 = 0#32) ∧
    ((b.readReg .encres).extractLsb' 0 8 = b.encLow ∧ (b.readReg .encres).extractLsb' 8 8 = b.encHigh ∧
      (b.readReg .encres).getLsbD 16 = b.encFullOff ∧ (b.readReg .encres).getLsbD 17 = b.encFullOn ∧
      b.readReg .encres &&& 0xFFFC0000#32 = 0#32) ∧
    ((b.readReg .qres).getLsbD 0 = b.qIsHigh ∧ b.readReg .qres &&& 0xFFFFFFFE#32 = 0#32) ∧
    ((b.readReg .syncctl).getLsbD 0 = b.halt ∧ (b.readReg .syncctl).getLsbD 1 = b.psrst ∧
      b.readReg .syncctl &&& 0xFFFFFFFC#32 = 0#32) ∧
    ((b.readReg (.ctrl t)).extractLsb' 0 2 = b.wgm t ∧ (b.readReg (.ctrl t)).extractLsb' 4 3 = b.cs t ∧
      (b.readReg (.ctrl t)).extractLsb' 8 2 = b.com t .a ∧ (b.readReg (.ctrl t)).extractLsb' 10 2 = b.com t .b ∧
      b.readReg (.ctrl t) &&& 0xFFFFF08C#32 = 0#32) ∧
    ((b.readReg .pinctl).extractLsb' 0 6 = b.dir ∧ (b.readReg .pinctl).extractLsb' 8 6 = b.lvl ∧
      b.readReg .pinctl &&& 0xFFFFC0C0#32 = 0#32) ∧
    (∀ s : SubChannel, (b.readReg (.ocr t s)).extractLsb' 0 16 = b.ocr t s ∧
      b.readReg (.ocr t s) &&& (if t = .pri then 0xFFFF0000#32 else 0xFFFFFF00#32) = 0#32) ∧
    ((b.readReg (.cnt t)).extractLsb' 0 16 = b.cnt t ∧
      b.readReg (.cnt t) &&& (if t = .pri then 0xFFFF0000#32 else 0xFFFFFF00#32) = 0#32) ∧
    ((b.readReg (.psc t)).extractLsb' 0 8 = b.psc t ∧ b.readReg (.psc t) &&& 0xFFFFFF00#32 = 0#32) ∧
    (b.readReg (.ocr .aux1 .a) = b.aux1.ocra.setWidth 32 ∧ b.readReg (.ocr .aux1 .b) = b.aux1.ocrb.setWidth 32 ∧
      b.readReg (.cnt .aux1) = b.aux1.cnt.setWidth 32 ∧ b.readReg (.psc .aux1) = b.aux1.psc.setWidth 32) ∧
    (b.readReg (.ocr .pri .a) = b.pri.ocra.setWidth 32 ∧ b.readReg (.ocr .pri .b) = b.pri.ocrb.setWidth 32 ∧
      b.readReg (.cnt .pri) = b.pri.cnt.setWidth 32 ∧ b.readReg (.psc .pri) = b.pri.psc.setWidth 32) ∧
    (b.readReg (.ocr .aux2 .a) = b.aux2.ocra.setWidth 32 ∧ b.readReg (.ocr .aux2 .b) = b.aux2.ocrb.setWidth 32 ∧
      b.readReg (.cnt .aux2) = b.aux2.cnt.setWidth 32 ∧ b.readReg (.psc .aux2) = b.aux2.psc.setWidth 32) ∧
    ((b.readReg .top).extractLsb' 0 16 = b.priTop ∧ b.readReg .top &&& 0xFFFF0000#32 = 0#32) ∧
    b.readReg .cmd = 0#32

/-- R103: byte k of a serialised register is bits [8k+7:8k], and the four bytes give the register back. -/
def Obligations.SerialisedBytesRunFromTheLowest : Prop :=
  ∀ (v : Word) (b0 b1 b2 b3 : Byte),
    (∀ (k : Fin 4) (n : Nat), n < 8 → (wordByte v k).getLsbD n = v.getLsbD (8 * k.val + n)) ∧
    ofWordBytes (wordByte v 0) (wordByte v 1) (wordByte v 2) (wordByte v 3) = v ∧
    (ofWordBytes b0 b1 b2 b3).toNat = b0.toNat + 256 * b1.toNat + 65536 * b2.toNat + 16777216 * b3.toNat

/-! ## Reset (file 70) -/

/-- R420 with the table of R63: a reset turn, at any time, gives every register its reset value and empties FAULTS. -/
def Obligations.ResetGivesEveryRegisterItsResetValue : Prop :=
  ∀ (s : State) (rest : List Turn), s.sched = .reset :: rest →
    ∃ t, step s = .next t ∧ t.sched = rest ∧ t.block = State.reset.block ∧
      t.block.busy = false ∧ t.block.initDone = false ∧ t.block.mode = .unset ∧ t.block.halt = false ∧
      t.block.psrst = false ∧ t.block.cmdreg = 0#32 ∧ t.block.upc = 0#4 ∧ t.block.savedCom = 0#2 ∧
      t.block.dir = 0#6 ∧ t.block.lvl = 0#6 ∧ t.block.priTop = 0#16 ∧ t.block.faults = [] ∧
      (∀ k, t.block.ctrl k = 0#12 ∧ t.block.cnt k = 0#16 ∧ t.block.psc k = 0#8 ∧
        t.block.ocr k .a = 0#16 ∧ t.block.ocr k .b = 0#16) ∧
      ∀ r : Reg, t.block.readReg r = 0#32

/-- The invariants hold right after reset (R63, R424). -/
def Obligations.InvariantsHoldAtReset : Prop :=
  State.reset.block.bootInvariant ∧ State.reset.block.fieldsLegal ∧ State.reset.block.faultsSorted ∧
  State.reset.hostKeptProtocol

/-! ## Invariants and whole-machine rules -/

/-- R32: BUSY = 1 exactly while UPC is inside the micro-program of the command in CMDREG; every step keeps it. -/
def Obligations.EveryStepKeepsTheSequencerInvariant : Prop :=
  ∀ s t : State, s.block.sequencerOk → step s = .next t → t.block.sequencerOk

/-- No step of a state that meets R32 faults: the sequencer always finds its micro-operation. -/
def Obligations.NoFaultWhileTheSequencerInvariantHolds : Prop :=
  ∀ (s : State) (r : Fault), s.block.sequencerOk → step s ≠ .fault r

/-- The headline invariant: with R32, where INIT stands (R222, R224 to R231, R424) and, from its end on, that the timers
stay configured and in the phase relation of R185 whatever commands, ticks and accesses follow (R433). Every step of the
machine keeps it. -/
def Obligations.EveryStepKeepsTheBootInvariant : Prop :=
  ∀ s t : State, s.block.bootInvariant → step s = .next t → t.block.bootInvariant

/-- R49 to R52, R54, R59 (93 U5): no step gives a register a value that no rule writes. -/
def Obligations.EveryStepKeepsTheFieldsLegal : Prop :=
  ∀ s t : State, s.block.fieldsLegal → step s = .next t → t.block.fieldsLegal

/-- Every step keeps the list that stands for FAULTS in its canonical form (the model's, log 6), and only reset takes a
fault out of it (R60). -/
def Obligations.FaultSetIsKeptAndOnlyGrows : Prop :=
  ∀ (s t : State) (turn : Turn) (rest : List Turn), s.sched = turn :: rest → step s = .next t →
    (s.block.faultsSorted → t.block.faultsSorted) ∧
    (turn ≠ .reset → ∀ f, f ∈ s.block.faults → f ∈ t.block.faults)

/-- R43, R34: MODE is set once: no step but a reset changes it again, and none but a reset clears INIT_DONE. -/
def Obligations.ModeIsSetOnceBetweenResets : Prop :=
  ∀ (s t : State) (turn : Turn) (rest : List Turn), s.sched = turn :: rest → turn ≠ .reset → step s = .next t →
    (s.block.bootInvariant → s.block.mode ≠ .unset → t.block.mode = s.block.mode) ∧
    (s.block.initDone = true → t.block.initDone = true)

/-- R424: while INIT has not been completed no pin is driven, and PINOUT reads 0. -/
def Obligations.NoPinIsDrivenBeforeInitCompletes : Prop :=
  ∀ b : Block, b.bootInvariant → b.initDone = false → ∀ p, b.out p = false ∧ b.outputEnable p = false

/-- R440, R441, 95 (opening): the end state of a command does not depend on the schedule: under any interleaving of
ticks and admitted reads, all but counters, dividers and FAULTS is as the sequencer's turns alone leave it. -/
def Obligations.EndStateDoesNotDependOnTheSchedule : Prop :=
  ∀ (s : State) (turns : List Turn), s.block.sequencerOk → turns.all Turn.quiet = true →
    ∃ t u, Host.Core.run Sys2Proof.core turns.length (s.withTurns turns) = .next t ∧
      Host.Core.run Sys2Proof.core (turns.countP (· == .sequencer))
        (s.withTurns (List.replicate (turns.countP (· == .sequencer)) .sequencer)) = .next u ∧
      { t.block.withoutCounts with faults := s.block.faults } = u.block.withoutCounts

/-- R441: a command in progress completes once the sequencer has had as many turns as micro-operations are left, whatever
the other agents do meanwhile, unless a reset intervenes. -/
def Obligations.EveryAcceptedCommandCompletes : Prop :=
  ∀ (s : State) (i : Instr) (turns : List Turn), s.block.sequencerOk → s.block.running i →
    turns.all Turn.harmless = true →
    (uprog i s.block.mode).length - s.block.upc.toNat ≤ turns.countP (· == .sequencer) →
    ∃ k t, k ≤ turns.length ∧ Host.Core.run Sys2Proof.core k (s.withTurns turns) = .next t ∧ t.block.busy = false

/-- R441, weak fairness (log 10): on every run that is weakly fair to the sequencer and in which no reset intervenes, a
command in progress completes. -/
def Obligations.FairSchedulesCompleteEveryCommand : Prop :=
  ∀ (sched : Nat → Turn) (s : State), weaklyFair sched s → (∀ n, (sched n).harmless = true) → s.block.sequencerOk →
    s.block.busy = true → ∃ n t, s.along sched n = .next t ∧ t.block.busy = false
end

