-- ==== Sys2Proof/Laws/State.lean ====
section
/-! SUPPORT. What each named update leaves in each field: one lemma per field per update. -/

namespace Sys2Proof.Machine

/-! ## Updates of the machine -/

@[simp] theorem pop_block (s : State) : s.pop.block = s.block := rfl
@[simp] theorem pop_rdata (s : State) : s.pop.rdata = s.rdata := rfl
@[simp] theorem pop_sched (s : State) : s.pop.sched = s.sched.tail := rfl
@[simp] theorem pop_slot (s : State) : s.pop.slot = s.slot := rfl
@[simp] theorem done_block (s : State) (b : Block) : (s.done b).block = b := rfl
@[simp] theorem done_rdata (s : State) (b : Block) : (s.done b).rdata = s.rdata := rfl
@[simp] theorem done_sched (s : State) (b : Block) : (s.done b).sched = s.sched.tail := rfl
@[simp] theorem done_slot (s : State) (b : Block) : (s.done b).slot = s.slot := rfl
@[simp] theorem withTurns_block (s : State) (turns : List Turn) : (s.withTurns turns).block = s.block := rfl
@[simp] theorem withTurns_rdata (s : State) (turns : List Turn) : (s.withTurns turns).rdata = s.rdata := rfl
@[simp] theorem withTurns_sched (s : State) (turns : List Turn) : (s.withTurns turns).sched = turns := rfl
@[simp] theorem withTurns_slot (s : State) (turns : List Turn) : (s.withTurns turns).slot = s.slot := rfl
@[simp] theorem withFetchWord_block (s : State) (n w : Nat) : (s.withFetchWord n w).block = s.block := rfl
@[simp] theorem withFetchWord_rdata (s : State) (n w : Nat) : (s.withFetchWord n w).rdata = s.rdata := rfl
@[simp] theorem withFetchWord_slot (s : State) (n w : Nat) : (s.withFetchWord n w).slot = s.slot := rfl
@[simp] theorem withFetchWord_sched (s : State) (n w : Nat) :
    (s.withFetchWord n w).sched = cmdWrite (BitVec.ofNat 32 (w % 2 ^ n)) :: s.sched := rfl
@[simp] theorem scheduled_block (s : State) : s.scheduled.block = s.block := by
  unfold State.scheduled; split <;> rfl
@[simp] theorem scheduled_rdata (s : State) : s.scheduled.rdata = s.rdata := by
  unfold State.scheduled; split <;> rfl

/-! ## Raising a model fault -/

@[simp] theorem raise_cmdreg (b : Block) (c : FaultCode) (w : Word) : (b.raise c w).cmdreg = b.cmdreg := rfl
@[simp] theorem raise_upc (b : Block) (c : FaultCode) (w : Word) : (b.raise c w).upc = b.upc := rfl
@[simp] theorem raise_busy (b : Block) (c : FaultCode) (w : Word) : (b.raise c w).busy = b.busy := rfl
@[simp] theorem raise_initDone (b : Block) (c : FaultCode) (w : Word) : (b.raise c w).initDone = b.initDone := rfl
@[simp] theorem raise_mode (b : Block) (c : FaultCode) (w : Word) : (b.raise c w).mode = b.mode := rfl
@[simp] theorem raise_halt (b : Block) (c : FaultCode) (w : Word) : (b.raise c w).halt = b.halt := rfl
@[simp] theorem raise_psrst (b : Block) (c : FaultCode) (w : Word) : (b.raise c w).psrst = b.psrst := rfl
@[simp] theorem raise_encLow (b : Block) (c : FaultCode) (w : Word) : (b.raise c w).encLow = b.encLow := rfl
@[simp] theorem raise_encHigh (b : Block) (c : FaultCode) (w : Word) : (b.raise c w).encHigh = b.encHigh := rfl
@[simp] theorem raise_encFullOff (b : Block) (c : FaultCode) (w : Word) : (b.raise c w).encFullOff = b.encFullOff := rfl
@[simp] theorem raise_encFullOn (b : Block) (c : FaultCode) (w : Word) : (b.raise c w).encFullOn = b.encFullOn := rfl
@[simp] theorem raise_qIsHigh (b : Block) (c : FaultCode) (w : Word) : (b.raise c w).qIsHigh = b.qIsHigh := rfl
@[simp] theorem raise_aux1 (b : Block) (c : FaultCode) (w : Word) : (b.raise c w).aux1 = b.aux1 := rfl
@[simp] theorem raise_pri (b : Block) (c : FaultCode) (w : Word) : (b.raise c w).pri = b.pri := rfl
@[simp] theorem raise_aux2 (b : Block) (c : FaultCode) (w : Word) : (b.raise c w).aux2 = b.aux2 := rfl
@[simp] theorem raise_priTop (b : Block) (c : FaultCode) (w : Word) : (b.raise c w).priTop = b.priTop := rfl
@[simp] theorem raise_dir (b : Block) (c : FaultCode) (w : Word) : (b.raise c w).dir = b.dir := rfl
@[simp] theorem raise_lvl (b : Block) (c : FaultCode) (w : Word) : (b.raise c w).lvl = b.lvl := rfl
@[simp] theorem raise_savedCom (b : Block) (c : FaultCode) (w : Word) : (b.raise c w).savedCom = b.savedCom := rfl
@[simp] theorem raise_faults (b : Block) (c : FaultCode) (w : Word) :
    (b.raise c w).faults = insertFault { code := c, info := w } b.faults := rfl

/-! ## Acceptance -/

@[simp] theorem accept_initDone (b : Block) (w : Word) (p : List MicroOp) : (b.accept w p).initDone = b.initDone := rfl
@[simp] theorem accept_mode (b : Block) (w : Word) (p : List MicroOp) : (b.accept w p).mode = b.mode := rfl
@[simp] theorem accept_halt (b : Block) (w : Word) (p : List MicroOp) : (b.accept w p).halt = b.halt := rfl
@[simp] theorem accept_psrst (b : Block) (w : Word) (p : List MicroOp) : (b.accept w p).psrst = b.psrst := rfl
@[simp] theorem accept_encLow (b : Block) (w : Word) (p : List MicroOp) : (b.accept w p).encLow = b.encLow := rfl
@[simp] theorem accept_encHigh (b : Block) (w : Word) (p : List MicroOp) : (b.accept w p).encHigh = b.encHigh := rfl
@[simp] theorem accept_encFullOff (b : Block) (w : Word) (p : List MicroOp) :
    (b.accept w p).encFullOff = b.encFullOff := rfl
@[simp] theorem accept_encFullOn (b : Block) (w : Word) (p : List MicroOp) :
    (b.accept w p).encFullOn = b.encFullOn := rfl
@[simp] theorem accept_qIsHigh (b : Block) (w : Word) (p : List MicroOp) : (b.accept w p).qIsHigh = b.qIsHigh := rfl
@[simp] theorem accept_aux1 (b : Block) (w : Word) (p : List MicroOp) : (b.accept w p).aux1 = b.aux1 := rfl
@[simp] theorem accept_pri (b : Block) (w : Word) (p : List MicroOp) : (b.accept w p).pri = b.pri := rfl
@[simp] theorem accept_aux2 (b : Block) (w : Word) (p : List MicroOp) : (b.accept w p).aux2 = b.aux2 := rfl
@[simp] theorem accept_priTop (b : Block) (w : Word) (p : List MicroOp) : (b.accept w p).priTop = b.priTop := rfl
@[simp] theorem accept_dir (b : Block) (w : Word) (p : List MicroOp) : (b.accept w p).dir = b.dir := rfl
@[simp] theorem accept_lvl (b : Block) (w : Word) (p : List MicroOp) : (b.accept w p).lvl = b.lvl := rfl
@[simp] theorem accept_savedCom (b : Block) (w : Word) (p : List MicroOp) : (b.accept w p).savedCom = b.savedCom := rfl
@[simp] theorem accept_faults (b : Block) (w : Word) (p : List MicroOp) : (b.accept w p).faults = b.faults := rfl
@[simp] theorem accept_cmdreg (b : Block) (w : Word) (p : List MicroOp) : (b.accept w p).cmdreg = w := rfl
@[simp] theorem accept_upc (b : Block) (w : Word) (p : List MicroOp) : (b.accept w p).upc = 0#4 := rfl
@[simp] theorem accept_busy (b : Block) (w : Word) (p : List MicroOp) :
    (b.accept w p).busy = busyAfterAccept p.length := rfl

/-! ## The transition of one micro-operation -/

@[simp] theorem afterOp_cmdreg (b : Block) (op : MicroOp) (n : Nat) :
    (b.afterOp op n).cmdreg = (b.perform op).cmdreg := rfl
@[simp] theorem afterOp_initDone (b : Block) (op : MicroOp) (n : Nat) :
    (b.afterOp op n).initDone = (b.perform op).initDone := rfl
@[simp] theorem afterOp_mode (b : Block) (op : MicroOp) (n : Nat) : (b.afterOp op n).mode = (b.perform op).mode := rfl
@[simp] theorem afterOp_halt (b : Block) (op : MicroOp) (n : Nat) : (b.afterOp op n).halt = (b.perform op).halt := rfl
@[simp] theorem afterOp_psrst (b : Block) (op : MicroOp) (n : Nat) :
    (b.afterOp op n).psrst = (b.perform op).psrst := rfl
@[simp] theorem afterOp_encLow (b : Block) (op : MicroOp) (n : Nat) :
    (b.afterOp op n).encLow = (b.perform op).encLow := rfl
@[simp] theorem afterOp_encHigh (b : Block) (op : MicroOp) (n : Nat) :
    (b.afterOp op n).encHigh = (b.perform op).encHigh := rfl
@[simp] theorem afterOp_encFullOff (b : Block) (op : MicroOp) (n : Nat) :
    (b.afterOp op n).encFullOff = (b.perform op).encFullOff := rfl
@[simp] theorem afterOp_encFullOn (b : Block) (op : MicroOp) (n : Nat) :
    (b.afterOp op n).encFullOn = (b.perform op).encFullOn := rfl
@[simp] theorem afterOp_qIsHigh (b : Block) (op : MicroOp) (n : Nat) :
    (b.afterOp op n).qIsHigh = (b.perform op).qIsHigh := rfl
@[simp] theorem afterOp_aux1 (b : Block) (op : MicroOp) (n : Nat) : (b.afterOp op n).aux1 = (b.perform op).aux1 := rfl
@[simp] theorem afterOp_pri (b : Block) (op : MicroOp) (n : Nat) : (b.afterOp op n).pri = (b.perform op).pri := rfl
@[simp] theorem afterOp_aux2 (b : Block) (op : MicroOp) (n : Nat) : (b.afterOp op n).aux2 = (b.perform op).aux2 := rfl
@[simp] theorem afterOp_priTop (b : Block) (op : MicroOp) (n : Nat) :
    (b.afterOp op n).priTop = (b.perform op).priTop := rfl
@[simp] theorem afterOp_dir (b : Block) (op : MicroOp) (n : Nat) : (b.afterOp op n).dir = (b.perform op).dir := rfl
@[simp] theorem afterOp_lvl (b : Block) (op : MicroOp) (n : Nat) : (b.afterOp op n).lvl = (b.perform op).lvl := rfl
@[simp] theorem afterOp_savedCom (b : Block) (op : MicroOp) (n : Nat) :
    (b.afterOp op n).savedCom = (b.perform op).savedCom := rfl
@[simp] theorem afterOp_faults (b : Block) (op : MicroOp) (n : Nat) :
    (b.afterOp op n).faults = (b.perform op).faults := rfl
@[simp] theorem afterOp_upc (b : Block) (op : MicroOp) (n : Nat) :
    (b.afterOp op n).upc = BitVec.ofNat 4 (b.upc.toNat + 1) := rfl
@[simp] theorem afterOp_busy (b : Block) (op : MicroOp) (n : Nat) :
    (b.afterOp op n).busy = busyAfterStep (b.upc.toNat + 1) n b.busy := rfl

/-! ## Pin registers -/

@[simp] theorem setDir_cmdreg (b : Block) (p : Pin) : (b.setDir p).cmdreg = b.cmdreg := rfl
@[simp] theorem setDir_upc (b : Block) (p : Pin) : (b.setDir p).upc = b.upc := rfl
@[simp] theorem setDir_busy (b : Block) (p : Pin) : (b.setDir p).busy = b.busy := rfl
@[simp] theorem setDir_initDone (b : Block) (p : Pin) : (b.setDir p).initDone = b.initDone := rfl
@[simp] theorem setDir_mode (b : Block) (p : Pin) : (b.setDir p).mode = b.mode := rfl
@[simp] theorem setDir_halt (b : Block) (p : Pin) : (b.setDir p).halt = b.halt := rfl
@[simp] theorem setDir_psrst (b : Block) (p : Pin) : (b.setDir p).psrst = b.psrst := rfl
@[simp] theorem setDir_encLow (b : Block) (p : Pin) : (b.setDir p).encLow = b.encLow := rfl
@[simp] theorem setDir_encHigh (b : Block) (p : Pin) : (b.setDir p).encHigh = b.encHigh := rfl
@[simp] theorem setDir_encFullOff (b : Block) (p : Pin) : (b.setDir p).encFullOff = b.encFullOff := rfl
@[simp] theorem setDir_encFullOn (b : Block) (p : Pin) : (b.setDir p).encFullOn = b.encFullOn := rfl
@[simp] theorem setDir_qIsHigh (b : Block) (p : Pin) : (b.setDir p).qIsHigh = b.qIsHigh := rfl
@[simp] theorem setDir_aux1 (b : Block) (p : Pin) : (b.setDir p).aux1 = b.aux1 := rfl
@[simp] theorem setDir_pri (b : Block) (p : Pin) : (b.setDir p).pri = b.pri := rfl
@[simp] theorem setDir_aux2 (b : Block) (p : Pin) : (b.setDir p).aux2 = b.aux2 := rfl
@[simp] theorem setDir_priTop (b : Block) (p : Pin) : (b.setDir p).priTop = b.priTop := rfl
@[simp] theorem setDir_lvl (b : Block) (p : Pin) : (b.setDir p).lvl = b.lvl := rfl
@[simp] theorem setDir_savedCom (b : Block) (p : Pin) : (b.setDir p).savedCom = b.savedCom := rfl
@[simp] theorem setDir_faults (b : Block) (p : Pin) : (b.setDir p).faults = b.faults := rfl
@[simp] theorem setDir_dir (b : Block) (p : Pin) : (b.setDir p).dir = setPinBit b.dir p true := rfl
@[simp] theorem setLvl_cmdreg (b : Block) (p : Pin) (v : Bool) : (b.setLvl p v).cmdreg = b.cmdreg := rfl
@[simp] theorem setLvl_upc (b : Block) (p : Pin) (v : Bool) : (b.setLvl p v).upc = b.upc := rfl
@[simp] theorem setLvl_busy (b : Block) (p : Pin) (v : Bool) : (b.setLvl p v).busy = b.busy := rfl
@[simp] theorem setLvl_initDone (b : Block) (p : Pin) (v : Bool) : (b.setLvl p v).initDone = b.initDone := rfl
@[simp] theorem setLvl_mode (b : Block) (p : Pin) (v : Bool) : (b.setLvl p v).mode = b.mode := rfl
@[simp] theorem setLvl_halt (b : Block) (p : Pin) (v : Bool) : (b.setLvl p v).halt = b.halt := rfl
@[simp] theorem setLvl_psrst (b : Block) (p : Pin) (v : Bool) : (b.setLvl p v).psrst = b.psrst := rfl
@[simp] theorem setLvl_encLow (b : Block) (p : Pin) (v : Bool) : (b.setLvl p v).encLow = b.encLow := rfl
@[simp] theorem setLvl_encHigh (b : Block) (p : Pin) (v : Bool) : (b.setLvl p v).encHigh = b.encHigh := rfl
@[simp] theorem setLvl_encFullOff (b : Block) (p : Pin) (v : Bool) : (b.setLvl p v).encFullOff = b.encFullOff := rfl
@[simp] theorem setLvl_encFullOn (b : Block) (p : Pin) (v : Bool) : (b.setLvl p v).encFullOn = b.encFullOn := rfl
@[simp] theorem setLvl_qIsHigh (b : Block) (p : Pin) (v : Bool) : (b.setLvl p v).qIsHigh = b.qIsHigh := rfl
@[simp] theorem setLvl_aux1 (b : Block) (p : Pin) (v : Bool) : (b.setLvl p v).aux1 = b.aux1 := rfl
@[simp] theorem setLvl_pri (b : Block) (p : Pin) (v : Bool) : (b.setLvl p v).pri = b.pri := rfl
@[simp] theorem setLvl_aux2 (b : Block) (p : Pin) (v : Bool) : (b.setLvl p v).aux2 = b.aux2 := rfl
@[simp] theorem setLvl_priTop (b : Block) (p : Pin) (v : Bool) : (b.setLvl p v).priTop = b.priTop := rfl
@[simp] theorem setLvl_dir (b : Block) (p : Pin) (v : Bool) : (b.setLvl p v).dir = b.dir := rfl
@[simp] theorem setLvl_savedCom (b : Block) (p : Pin) (v : Bool) : (b.setLvl p v).savedCom = b.savedCom := rfl
@[simp] theorem setLvl_faults (b : Block) (p : Pin) (v : Bool) : (b.setLvl p v).faults = b.faults := rfl
@[simp] theorem setLvl_lvl (b : Block) (p : Pin) (v : Bool) : (b.setLvl p v).lvl = setPinBit b.lvl p v := rfl

/-! ## One timer -/

@[simp] theorem onTimer_cmdreg (b : Block) (t : Timer) (g : (w : Nat) → TimerRegs w → TimerRegs w) :
    (b.onTimer t g).cmdreg = b.cmdreg := by
  cases t <;> rfl
@[simp] theorem onTimer_upc (b : Block) (t : Timer) (g : (w : Nat) → TimerRegs w → TimerRegs w) :
    (b.onTimer t g).upc = b.upc := by
  cases t <;> rfl
@[simp] theorem onTimer_busy (b : Block) (t : Timer) (g : (w : Nat) → TimerRegs w → TimerRegs w) :
    (b.onTimer t g).busy = b.busy := by
  cases t <;> rfl
@[simp] theorem onTimer_initDone (b : Block) (t : Timer) (g : (w : Nat) → TimerRegs w → TimerRegs w) :
    (b.onTimer t g).initDone = b.initDone := by
  cases t <;> rfl
@[simp] theorem onTimer_mode (b : Block) (t : Timer) (g : (w : Nat) → TimerRegs w → TimerRegs w) :
    (b.onTimer t g).mode = b.mode := by
  cases t <;> rfl
@[simp] theorem onTimer_halt (b : Block) (t : Timer) (g : (w : Nat) → TimerRegs w → TimerRegs w) :
    (b.onTimer t g).halt = b.halt := by
  cases t <;> rfl
@[simp] theorem onTimer_psrst (b : Block) (t : Timer) (g : (w : Nat) → TimerRegs w → TimerRegs w) :
    (b.onTimer t g).psrst = b.psrst := by
  cases t <;> rfl
@[simp] theorem onTimer_encLow (b : Block) (t : Timer) (g : (w : Nat) → TimerRegs w → TimerRegs w) :
    (b.onTimer t g).encLow = b.encLow := by
  cases t <;> rfl
@[simp] theorem onTimer_encHigh (b : Block) (t : Timer) (g : (w : Nat) → TimerRegs w → TimerRegs w) :
    (b.onTimer t g).encHigh = b.encHigh := by
  cases t <;> rfl
@[simp] theorem onTimer_encFullOff (b : Block) (t : Timer) (g : (w : Nat) → TimerRegs w → TimerRegs w) :
    (b.onTimer t g).encFullOff = b.encFullOff := by
  cases t <;> rfl
@[simp] theorem onTimer_encFullOn (b : Block) (t : Timer) (g : (w : Nat) → TimerRegs w → TimerRegs w) :
    (b.onTimer t g).encFullOn = b.encFullOn := by
  cases t <;> rfl
@[simp] theorem onTimer_qIsHigh (b : Block) (t : Timer) (g : (w : Nat) → TimerRegs w → TimerRegs w) :
    (b.onTimer t g).qIsHigh = b.qIsHigh := by
  cases t <;> rfl
@[simp] theorem onTimer_priTop (b : Block) (t : Timer) (g : (w : Nat) → TimerRegs w → TimerRegs w) :
    (b.onTimer t g).priTop = b.priTop := by
  cases t <;> rfl
@[simp] theorem onTimer_dir (b : Block) (t : Timer) (g : (w : Nat) → TimerRegs w → TimerRegs w) :
    (b.onTimer t g).dir = b.dir := by
  cases t <;> rfl
@[simp] theorem onTimer_lvl (b : Block) (t : Timer) (g : (w : Nat) → TimerRegs w → TimerRegs w) :
    (b.onTimer t g).lvl = b.lvl := by
  cases t <;> rfl
@[simp] theorem onTimer_savedCom (b : Block) (t : Timer) (g : (w : Nat) → TimerRegs w → TimerRegs w) :
    (b.onTimer t g).savedCom = b.savedCom := by
  cases t <;> rfl
@[simp] theorem onTimer_faults (b : Block) (t : Timer) (g : (w : Nat) → TimerRegs w → TimerRegs w) :
    (b.onTimer t g).faults = b.faults := by
  cases t <;> rfl
@[simp] theorem setCom_cmdreg (b : Block) (t : Timer) (s : SubChannel) (v : BitVec 2) :
    (b.setCom t s v).cmdreg = b.cmdreg := onTimer_cmdreg ..
@[simp] theorem setCom_upc (b : Block) (t : Timer) (s : SubChannel) (v : BitVec 2) :
    (b.setCom t s v).upc = b.upc := onTimer_upc ..
@[simp] theorem setCom_busy (b : Block) (t : Timer) (s : SubChannel) (v : BitVec 2) :
    (b.setCom t s v).busy = b.busy := onTimer_busy ..
@[simp] theorem setCom_initDone (b : Block) (t : Timer) (s : SubChannel) (v : BitVec 2) :
    (b.setCom t s v).initDone = b.initDone := onTimer_initDone ..
@[simp] theorem setCom_mode (b : Block) (t : Timer) (s : SubChannel) (v : BitVec 2) :
    (b.setCom t s v).mode = b.mode := onTimer_mode ..
@[simp] theorem setCom_halt (b : Block) (t : Timer) (s : SubChannel) (v : BitVec 2) :
    (b.setCom t s v).halt = b.halt := onTimer_halt ..
@[simp] theorem setCom_psrst (b : Block) (t : Timer) (s : SubChannel) (v : BitVec 2) :
    (b.setCom t s v).psrst = b.psrst := onTimer_psrst ..
@[simp] theorem setCom_encLow (b : Block) (t : Timer) (s : SubChannel) (v : BitVec 2) :
    (b.setCom t s v).encLow = b.encLow := onTimer_encLow ..
@[simp] theorem setCom_encHigh (b : Block) (t : Timer) (s : SubChannel) (v : BitVec 2) :
    (b.setCom t s v).encHigh = b.encHigh := onTimer_encHigh ..
@[simp] theorem setCom_encFullOff (b : Block) (t : Timer) (s : SubChannel) (v : BitVec 2) :
    (b.setCom t s v).encFullOff = b.encFullOff := onTimer_encFullOff ..
@[simp] theorem setCom_encFullOn (b : Block) (t : Timer) (s : SubChannel) (v : BitVec 2) :
    (b.setCom t s v).encFullOn = b.encFullOn := onTimer_encFullOn ..
@[simp] theorem setCom_qIsHigh (b : Block) (t : Timer) (s : SubChannel) (v : BitVec 2) :
    (b.setCom t s v).qIsHigh = b.qIsHigh := onTimer_qIsHigh ..
@[simp] theorem setCom_priTop (b : Block) (t : Timer) (s : SubChannel) (v : BitVec 2) :
    (b.setCom t s v).priTop = b.priTop := onTimer_priTop ..
@[simp] theorem setCom_dir (b : Block) (t : Timer) (s : SubChannel) (v : BitVec 2) :
    (b.setCom t s v).dir = b.dir := onTimer_dir ..
@[simp] theorem setCom_lvl (b : Block) (t : Timer) (s : SubChannel) (v : BitVec 2) :
    (b.setCom t s v).lvl = b.lvl := onTimer_lvl ..
@[simp] theorem setCom_savedCom (b : Block) (t : Timer) (s : SubChannel) (v : BitVec 2) :
    (b.setCom t s v).savedCom = b.savedCom := onTimer_savedCom ..
@[simp] theorem setCom_faults (b : Block) (t : Timer) (s : SubChannel) (v : BitVec 2) :
    (b.setCom t s v).faults = b.faults := onTimer_faults ..
@[simp] theorem setOcr_cmdreg (b : Block) (t : Timer) (s : SubChannel) (v : BitVec 16) :
    (b.setOcr t s v).cmdreg = b.cmdreg := onTimer_cmdreg ..
@[simp] theorem setOcr_upc (b : Block) (t : Timer) (s : SubChannel) (v : BitVec 16) :
    (b.setOcr t s v).upc = b.upc := onTimer_upc ..
@[simp] theorem setOcr_busy (b : Block) (t : Timer) (s : SubChannel) (v : BitVec 16) :
    (b.setOcr t s v).busy = b.busy := onTimer_busy ..
@[simp] theorem setOcr_initDone (b : Block) (t : Timer) (s : SubChannel) (v : BitVec 16) :
    (b.setOcr t s v).initDone = b.initDone := onTimer_initDone ..
@[simp] theorem setOcr_mode (b : Block) (t : Timer) (s : SubChannel) (v : BitVec 16) :
    (b.setOcr t s v).mode = b.mode := onTimer_mode ..
@[simp] theorem setOcr_halt (b : Block) (t : Timer) (s : SubChannel) (v : BitVec 16) :
    (b.setOcr t s v).halt = b.halt := onTimer_halt ..
@[simp] theorem setOcr_psrst (b : Block) (t : Timer) (s : SubChannel) (v : BitVec 16) :
    (b.setOcr t s v).psrst = b.psrst := onTimer_psrst ..
@[simp] theorem setOcr_encLow (b : Block) (t : Timer) (s : SubChannel) (v : BitVec 16) :
    (b.setOcr t s v).encLow = b.encLow := onTimer_encLow ..
@[simp] theorem setOcr_encHigh (b : Block) (t : Timer) (s : SubChannel) (v : BitVec 16) :
    (b.setOcr t s v).encHigh = b.encHigh := onTimer_encHigh ..
@[simp] theorem setOcr_encFullOff (b : Block) (t : Timer) (s : SubChannel) (v : BitVec 16) :
    (b.setOcr t s v).encFullOff = b.encFullOff := onTimer_encFullOff ..
@[simp] theorem setOcr_encFullOn (b : Block) (t : Timer) (s : SubChannel) (v : BitVec 16) :
    (b.setOcr t s v).encFullOn = b.encFullOn := onTimer_encFullOn ..
@[simp] theorem setOcr_qIsHigh (b : Block) (t : Timer) (s : SubChannel) (v : BitVec 16) :
    (b.setOcr t s v).qIsHigh = b.qIsHigh := onTimer_qIsHigh ..
@[simp] theorem setOcr_priTop (b : Block) (t : Timer) (s : SubChannel) (v : BitVec 16) :
    (b.setOcr t s v).priTop = b.priTop := onTimer_priTop ..
@[simp] theorem setOcr_dir (b : Block) (t : Timer) (s : SubChannel) (v : BitVec 16) :
    (b.setOcr t s v).dir = b.dir := onTimer_dir ..
@[simp] theorem setOcr_lvl (b : Block) (t : Timer) (s : SubChannel) (v : BitVec 16) :
    (b.setOcr t s v).lvl = b.lvl := onTimer_lvl ..
@[simp] theorem setOcr_savedCom (b : Block) (t : Timer) (s : SubChannel) (v : BitVec 16) :
    (b.setOcr t s v).savedCom = b.savedCom := onTimer_savedCom ..
@[simp] theorem setOcr_faults (b : Block) (t : Timer) (s : SubChannel) (v : BitVec 16) :
    (b.setOcr t s v).faults = b.faults := onTimer_faults ..

/-! ## A tick -/

@[simp] theorem tick_cmdreg (b : Block) : b.tick.cmdreg = b.cmdreg := by
  unfold Block.tick; split <;> rfl
@[simp] theorem tick_upc (b : Block) : b.tick.upc = b.upc := by
  unfold Block.tick; split <;> rfl
@[simp] theorem tick_busy (b : Block) : b.tick.busy = b.busy := by
  unfold Block.tick; split <;> rfl
@[simp] theorem tick_initDone (b : Block) : b.tick.initDone = b.initDone := by
  unfold Block.tick; split <;> rfl
@[simp] theorem tick_mode (b : Block) : b.tick.mode = b.mode := by
  unfold Block.tick; split <;> rfl
@[simp] theorem tick_halt (b : Block) : b.tick.halt = b.halt := by
  unfold Block.tick; split <;> rfl
@[simp] theorem tick_psrst (b : Block) : b.tick.psrst = b.psrst := by
  unfold Block.tick; split <;> rfl
@[simp] theorem tick_encLow (b : Block) : b.tick.encLow = b.encLow := by
  unfold Block.tick; split <;> rfl
@[simp] theorem tick_encHigh (b : Block) : b.tick.encHigh = b.encHigh := by
  unfold Block.tick; split <;> rfl
@[simp] theorem tick_encFullOff (b : Block) : b.tick.encFullOff = b.encFullOff := by
  unfold Block.tick; split <;> rfl
@[simp] theorem tick_encFullOn (b : Block) : b.tick.encFullOn = b.encFullOn := by
  unfold Block.tick; split <;> rfl
@[simp] theorem tick_qIsHigh (b : Block) : b.tick.qIsHigh = b.qIsHigh := by
  unfold Block.tick; split <;> rfl
@[simp] theorem tick_priTop (b : Block) : b.tick.priTop = b.priTop := by
  unfold Block.tick; split <;> rfl
@[simp] theorem tick_dir (b : Block) : b.tick.dir = b.dir := by
  unfold Block.tick; split <;> rfl
@[simp] theorem tick_lvl (b : Block) : b.tick.lvl = b.lvl := by
  unfold Block.tick; split <;> rfl
@[simp] theorem tick_savedCom (b : Block) : b.tick.savedCom = b.savedCom := by
  unfold Block.tick; split <;> rfl
@[simp] theorem tick_faults (b : Block) : b.tick.faults = b.faults := by
  unfold Block.tick; split <;> rfl

end Sys2Proof.Machine
end

