-- ==== Sys2Proof/Laws/Faults.lean ====
section
/-! SUPPORT. The list that stands for FAULTS: membership, and its canonical form. -/

namespace Sys2Proof.Machine

/-- The key of a fault tells it from every other. -/
theorem ModelFault.key_injective {f g : ModelFault} (h : f.key = g.key) : f = g := by
  obtain ⟨c, w⟩ := f
  obtain ⟨d, v⟩ := g
  have hw := w.isLt
  have hv := v.isLt
  simp only [ModelFault.key] at h
  have hn : c.number = d.number := by omega
  have hwv : w = v := BitVec.eq_of_toNat_eq (by omega)
  have hc : c = d := by revert hn; cases c <;> cases d <;> decide
  rw [hc, hwv]

/-- Raising adds the one pair and loses none (R60). -/
@[simp] theorem mem_insertFault (f g : ModelFault) (l : List ModelFault) :
    f ∈ insertFault g l ↔ f = g ∨ f ∈ l := by
  induction l with
  | nil => simp [insertFault]
  | cons k rest ih =>
    simp only [insertFault]
    split
    · simp
    · split
      · next h =>
        obtain rfl := ModelFault.key_injective h
        exact ⟨.inr, fun hm => hm.elim (fun e => e ▸ List.mem_cons_self) id⟩
      · simp only [List.mem_cons, ih]
        exact or_left_comm

/-- Insertion keeps the canonical form. -/
theorem insertFault_sorted (g : ModelFault) {l : List ModelFault} (h : l.Pairwise fun f k => f.key < k.key) :
    (insertFault g l).Pairwise fun f k => f.key < k.key := by
  induction l with
  | nil => simp [insertFault]
  | cons k rest ih =>
    obtain ⟨hk, hrest⟩ := List.pairwise_cons.mp h
    simp only [insertFault]
    split
    · next hlt =>
      refine List.pairwise_cons.mpr ⟨?_, h⟩
      intro x hx
      rcases List.mem_cons.mp hx with rfl | hx
      · exact hlt
      · exact Nat.lt_trans hlt (hk x hx)
    · split
      · exact h
      · next h1 h2 =>
        refine List.pairwise_cons.mpr ⟨?_, ih hrest⟩
        intro x hx
        rcases (mem_insertFault x g rest).mp hx with rfl | hx
        · omega
        · exact hk x hx

end Sys2Proof.Machine
end

