-- ==== Sys2Proof/Laws/Pins.lean ====
section
/-! SUPPORT. The pin map and the pin registers. -/

namespace Sys2Proof.Machine

@[simp] theorem tmr_pin (t : Timer) (s : SubChannel) : tmr (pin t s) = t := by
  cases t <;> cases s <;> rfl

@[simp] theorem subch_pin (t : Timer) (s : SubChannel) : subch (pin t s) = s := by
  cases t <;> cases s <;> rfl

@[simp] theorem pin_tmr_subch (p : Pin) : pin (tmr p) (subch p) = p := by
  revert p; decide

/-- Two pins are the same exactly when timer and sub-channel are (R41). -/
@[simp] theorem pin_inj (t t' : Timer) (s s' : SubChannel) : pin t s = pin t' s' ↔ t = t' ∧ s = s' := by
  cases t <;> cases t' <;> cases s <;> cases s' <;> decide

theorem getLsbD_one_shiftLeft (p q : Pin) : (1#6 <<< p.val).getLsbD q.val = decide (q = p) := by
  revert p q; decide

/-- A write to one bit of a pin register, read at any bit. -/
@[simp] theorem pinBit_setPinBit (v : BitVec 6) (p q : Pin) (x : Bool) :
    pinBit (setPinBit v p x) q = if q = p then x else pinBit v q := by
  have hq : q.val < 6 := q.isLt
  cases x
  · simp only [pinBit, setPinBit, Bool.false_eq_true, if_false, BitVec.getLsbD_and, BitVec.getLsbD_not,
      getLsbD_one_shiftLeft, hq, decide_true, Bool.true_and]
    by_cases h : q = p <;> simp [h]
  · simp only [pinBit, setPinBit, if_true, BitVec.getLsbD_or, getLsbD_one_shiftLeft]
    by_cases h : q = p <;> simp [h]

/-- A pin register is its six bits. -/
theorem pinReg_ext {v w : BitVec 6} (h : ∀ p : Pin, pinBit v p = pinBit w p) : v = w := by
  apply BitVec.eq_of_getLsbD_eq
  intro i hi
  exact h ⟨i, hi⟩

/-- Bit p of the six values of a pin function is its value at p. -/
@[simp] theorem pinBit_pinVector (f : Pin → Bool) (p : Pin) : pinBit (pinVector f) p = f p := by
  have key : ∀ (a b c d e g : Bool) (q : Pin),
      pinBit (BitVec.ofBool a ++ BitVec.ofBool b ++ BitVec.ofBool c ++ BitVec.ofBool d ++ BitVec.ofBool e
        ++ BitVec.ofBool g) q
        = (match q.val with | 0 => g | 1 => e | 2 => d | 3 => c | 4 => b | _ => a) := by decide
  unfold pinVector
  rw [key]
  revert p
  intro p
  match p with
  | 0 => rfl
  | 1 => rfl
  | 2 => rfl
  | 3 => rfl
  | 4 => rfl
  | 5 => rfl

end Sys2Proof.Machine
end

