-- ==== Sys2Proof/Laws/Timers.lean ====
section
/-! SUPPORT. The timers' fields under each update: what is read back, and what is left alone. -/

namespace Sys2Proof.Machine

/-! ## One register set -/

@[simp] theorem TimerRegs.com_setCom {w : Nat} (r : TimerRegs w) (s s' : SubChannel) (v : BitVec 2) :
    (r.setCom s v).com s' = if s' = s then v else r.com s' := by
  cases s <;> cases s' <;> rfl

@[simp] theorem TimerRegs.ocr_setCom {w : Nat} (r : TimerRegs w) (s s' : SubChannel) (v : BitVec 2) :
    (r.setCom s v).ocr s' = r.ocr s' := by cases s <;> cases s' <;> rfl

@[simp] theorem TimerRegs.wgm_setCom {w : Nat} (r : TimerRegs w) (s : SubChannel) (v : BitVec 2) :
    (r.setCom s v).wgm = r.wgm := by cases s <;> rfl

@[simp] theorem TimerRegs.cs_setCom {w : Nat} (r : TimerRegs w) (s : SubChannel) (v : BitVec 2) :
    (r.setCom s v).cs = r.cs := by cases s <;> rfl

@[simp] theorem TimerRegs.cnt_setCom {w : Nat} (r : TimerRegs w) (s : SubChannel) (v : BitVec 2) :
    (r.setCom s v).cnt = r.cnt := by cases s <;> rfl

@[simp] theorem TimerRegs.psc_setCom {w : Nat} (r : TimerRegs w) (s : SubChannel) (v : BitVec 2) :
    (r.setCom s v).psc = r.psc := by cases s <;> rfl

@[simp] theorem TimerRegs.ocr_setOcr {w : Nat} (r : TimerRegs w) (s s' : SubChannel) (v : BitVec w) :
    (r.setOcr s v).ocr s' = if s' = s then v else r.ocr s' := by
  cases s <;> cases s' <;> rfl

@[simp] theorem TimerRegs.com_setOcr {w : Nat} (r : TimerRegs w) (s s' : SubChannel) (v : BitVec w) :
    (r.setOcr s v).com s' = r.com s' := by cases s <;> cases s' <;> rfl

@[simp] theorem TimerRegs.wgm_setOcr {w : Nat} (r : TimerRegs w) (s : SubChannel) (v : BitVec w) :
    (r.setOcr s v).wgm = r.wgm := by cases s <;> rfl

@[simp] theorem TimerRegs.cs_setOcr {w : Nat} (r : TimerRegs w) (s : SubChannel) (v : BitVec w) :
    (r.setOcr s v).cs = r.cs := by cases s <;> rfl

@[simp] theorem TimerRegs.cnt_setOcr {w : Nat} (r : TimerRegs w) (s : SubChannel) (v : BitVec w) :
    (r.setOcr s v).cnt = r.cnt := by cases s <;> rfl

@[simp] theorem TimerRegs.psc_setOcr {w : Nat} (r : TimerRegs w) (s : SubChannel) (v : BitVec w) :
    (r.setOcr s v).psc = r.psc := by cases s <;> rfl

/-! ## The timers of a block -/

@[simp] theorem com_setCom (b : Block) (t t' : Timer) (s s' : SubChannel) (v : BitVec 2) :
    (b.setCom t s v).com t' s' = if t' = t ∧ s' = s then v else b.com t' s' := by
  cases t <;> cases t' <;> cases s <;> cases s' <;> rfl

@[simp] theorem ocr_setCom (b : Block) (t t' : Timer) (s s' : SubChannel) (v : BitVec 2) :
    (b.setCom t s v).ocr t' s' = b.ocr t' s' := by
  cases t <;> cases t' <;> cases s <;> cases s' <;> rfl

@[simp] theorem wgm_setCom (b : Block) (t t' : Timer) (s : SubChannel) (v : BitVec 2) :
    (b.setCom t s v).wgm t' = b.wgm t' := by cases t <;> cases t' <;> cases s <;> rfl

@[simp] theorem cs_setCom (b : Block) (t t' : Timer) (s : SubChannel) (v : BitVec 2) :
    (b.setCom t s v).cs t' = b.cs t' := by cases t <;> cases t' <;> cases s <;> rfl

@[simp] theorem cnt_setCom (b : Block) (t t' : Timer) (s : SubChannel) (v : BitVec 2) :
    (b.setCom t s v).cnt t' = b.cnt t' := by cases t <;> cases t' <;> cases s <;> rfl

@[simp] theorem psc_setCom (b : Block) (t t' : Timer) (s : SubChannel) (v : BitVec 2) :
    (b.setCom t s v).psc t' = b.psc t' := by cases t <;> cases t' <;> cases s <;> rfl

/-- A compare value of 8 bits, or of 16 for PRI, is read back as it was written (R332, R333). -/
theorem ocr_setOcr (b : Block) (t t' : Timer) (s s' : SubChannel) (v : BitVec 16) :
    (b.setOcr t s v).ocr t' s' =
      if t' = t ∧ s' = s then (if t = .pri then v else (v.setWidth 8).setWidth 16) else b.ocr t' s' := by
  cases t <;> cases t' <;> cases s <;> cases s' <;> simp [Block.setOcr, Block.onTimer, Block.ocr]

@[simp] theorem com_setOcr (b : Block) (t t' : Timer) (s s' : SubChannel) (v : BitVec 16) :
    (b.setOcr t s v).com t' s' = b.com t' s' := by
  cases t <;> cases t' <;> cases s <;> cases s' <;> rfl

@[simp] theorem wgm_setOcr (b : Block) (t t' : Timer) (s : SubChannel) (v : BitVec 16) :
    (b.setOcr t s v).wgm t' = b.wgm t' := by cases t <;> cases t' <;> cases s <;> rfl

@[simp] theorem cs_setOcr (b : Block) (t t' : Timer) (s : SubChannel) (v : BitVec 16) :
    (b.setOcr t s v).cs t' = b.cs t' := by cases t <;> cases t' <;> cases s <;> rfl

@[simp] theorem cnt_setOcr (b : Block) (t t' : Timer) (s : SubChannel) (v : BitVec 16) :
    (b.setOcr t s v).cnt t' = b.cnt t' := by cases t <;> cases t' <;> cases s <;> rfl

@[simp] theorem psc_setOcr (b : Block) (t t' : Timer) (s : SubChannel) (v : BitVec 16) :
    (b.setOcr t s v).psc t' = b.psc t' := by cases t <;> cases t' <;> cases s <;> rfl

@[simp] theorem com_setDir (b : Block) (p : Pin) (t : Timer) (s : SubChannel) :
    (b.setDir p).com t s = b.com t s := by cases t <;> rfl

@[simp] theorem ocr_setDir (b : Block) (p : Pin) (t : Timer) (s : SubChannel) :
    (b.setDir p).ocr t s = b.ocr t s := by cases t <;> rfl

@[simp] theorem wgm_setDir (b : Block) (p : Pin) (t : Timer) : (b.setDir p).wgm t = b.wgm t := by cases t <;> rfl

@[simp] theorem cs_setDir (b : Block) (p : Pin) (t : Timer) : (b.setDir p).cs t = b.cs t := by cases t <;> rfl

@[simp] theorem cnt_setDir (b : Block) (p : Pin) (t : Timer) : (b.setDir p).cnt t = b.cnt t := by cases t <;> rfl

@[simp] theorem psc_setDir (b : Block) (p : Pin) (t : Timer) : (b.setDir p).psc t = b.psc t := by cases t <;> rfl

@[simp] theorem com_setLvl (b : Block) (p : Pin) (v : Bool) (t : Timer) (s : SubChannel) :
    (b.setLvl p v).com t s = b.com t s := by cases t <;> rfl

@[simp] theorem ocr_setLvl (b : Block) (p : Pin) (v : Bool) (t : Timer) (s : SubChannel) :
    (b.setLvl p v).ocr t s = b.ocr t s := by cases t <;> rfl

@[simp] theorem wgm_setLvl (b : Block) (p : Pin) (v : Bool) (t : Timer) : (b.setLvl p v).wgm t = b.wgm t := by
  cases t <;> rfl

@[simp] theorem cs_setLvl (b : Block) (p : Pin) (v : Bool) (t : Timer) : (b.setLvl p v).cs t = b.cs t := by
  cases t <;> rfl

@[simp] theorem cnt_setLvl (b : Block) (p : Pin) (v : Bool) (t : Timer) : (b.setLvl p v).cnt t = b.cnt t := by
  cases t <;> rfl

@[simp] theorem psc_setLvl (b : Block) (p : Pin) (v : Bool) (t : Timer) : (b.setLvl p v).psc t = b.psc t := by
  cases t <;> rfl

/-! ## Updates outside the timers -/

@[simp] theorem com_ofSequencer (b : Block) (t : Timer) (s : SubChannel) (w : Word) (u : BitVec 4) (x : Bool) :
    ({ b with cmdreg := w, upc := u, busy := x } : Block).com t s = b.com t s := by cases t <;> rfl

@[simp] theorem ocr_ofSequencer (b : Block) (t : Timer) (s : SubChannel) (w : Word) (u : BitVec 4) (x : Bool) :
    ({ b with cmdreg := w, upc := u, busy := x } : Block).ocr t s = b.ocr t s := by cases t <;> rfl

@[simp] theorem wgm_ofSequencer (b : Block) (t : Timer) (w : Word) (u : BitVec 4) (x : Bool) :
    ({ b with cmdreg := w, upc := u, busy := x } : Block).wgm t = b.wgm t := by cases t <;> rfl

@[simp] theorem cs_ofSequencer (b : Block) (t : Timer) (w : Word) (u : BitVec 4) (x : Bool) :
    ({ b with cmdreg := w, upc := u, busy := x } : Block).cs t = b.cs t := by cases t <;> rfl

@[simp] theorem cnt_ofSequencer (b : Block) (t : Timer) (w : Word) (u : BitVec 4) (x : Bool) :
    ({ b with cmdreg := w, upc := u, busy := x } : Block).cnt t = b.cnt t := by cases t <;> rfl

@[simp] theorem psc_ofSequencer (b : Block) (t : Timer) (w : Word) (u : BitVec 4) (x : Bool) :
    ({ b with cmdreg := w, upc := u, busy := x } : Block).psc t = b.psc t := by cases t <;> rfl

@[simp] theorem com_ofUpcBusy (b : Block) (t : Timer) (s : SubChannel) (u : BitVec 4) (x : Bool) :
    ({ b with upc := u, busy := x } : Block).com t s = b.com t s := by cases t <;> rfl

@[simp] theorem ocr_ofUpcBusy (b : Block) (t : Timer) (s : SubChannel) (u : BitVec 4) (x : Bool) :
    ({ b with upc := u, busy := x } : Block).ocr t s = b.ocr t s := by cases t <;> rfl

@[simp] theorem wgm_ofUpcBusy (b : Block) (t : Timer) (u : BitVec 4) (x : Bool) :
    ({ b with upc := u, busy := x } : Block).wgm t = b.wgm t := by cases t <;> rfl

@[simp] theorem cs_ofUpcBusy (b : Block) (t : Timer) (u : BitVec 4) (x : Bool) :
    ({ b with upc := u, busy := x } : Block).cs t = b.cs t := by cases t <;> rfl

@[simp] theorem cnt_ofUpcBusy (b : Block) (t : Timer) (u : BitVec 4) (x : Bool) :
    ({ b with upc := u, busy := x } : Block).cnt t = b.cnt t := by cases t <;> rfl

@[simp] theorem psc_ofUpcBusy (b : Block) (t : Timer) (u : BitVec 4) (x : Bool) :
    ({ b with upc := u, busy := x } : Block).psc t = b.psc t := by cases t <;> rfl

@[simp] theorem com_ofSavedCom (b : Block) (t : Timer) (s : SubChannel) (v : BitVec 2) :
    ({ b with savedCom := v } : Block).com t s = b.com t s := by cases t <;> rfl

@[simp] theorem ocr_ofSavedCom (b : Block) (t : Timer) (s : SubChannel) (v : BitVec 2) :
    ({ b with savedCom := v } : Block).ocr t s = b.ocr t s := by cases t <;> rfl

@[simp] theorem wgm_ofSavedCom (b : Block) (t : Timer) (v : BitVec 2) :
    ({ b with savedCom := v } : Block).wgm t = b.wgm t := by cases t <;> rfl

@[simp] theorem cs_ofSavedCom (b : Block) (t : Timer) (v : BitVec 2) :
    ({ b with savedCom := v } : Block).cs t = b.cs t := by cases t <;> rfl

@[simp] theorem cnt_ofSavedCom (b : Block) (t : Timer) (v : BitVec 2) :
    ({ b with savedCom := v } : Block).cnt t = b.cnt t := by cases t <;> rfl

@[simp] theorem psc_ofSavedCom (b : Block) (t : Timer) (v : BitVec 2) :
    ({ b with savedCom := v } : Block).psc t = b.psc t := by cases t <;> rfl

@[simp] theorem com_ofFaults (b : Block) (t : Timer) (s : SubChannel) (l : List ModelFault) :
    ({ b with faults := l } : Block).com t s = b.com t s := by cases t <;> rfl

@[simp] theorem ocr_ofFaults (b : Block) (t : Timer) (s : SubChannel) (l : List ModelFault) :
    ({ b with faults := l } : Block).ocr t s = b.ocr t s := by cases t <;> rfl

@[simp] theorem wgm_ofFaults (b : Block) (t : Timer) (l : List ModelFault) :
    ({ b with faults := l } : Block).wgm t = b.wgm t := by cases t <;> rfl

@[simp] theorem cs_ofFaults (b : Block) (t : Timer) (l : List ModelFault) :
    ({ b with faults := l } : Block).cs t = b.cs t := by cases t <;> rfl

@[simp] theorem cnt_ofFaults (b : Block) (t : Timer) (l : List ModelFault) :
    ({ b with faults := l } : Block).cnt t = b.cnt t := by cases t <;> rfl

@[simp] theorem psc_ofFaults (b : Block) (t : Timer) (l : List ModelFault) :
    ({ b with faults := l } : Block).psc t = b.psc t := by cases t <;> rfl

/-! ## Ticks -/

/-- A tick of one timer leaves its control and compare registers alone (R183). -/
theorem TimerRegs.tick_frame {w : Nat} (r : TimerRegs w) (x : Bool) (top : Option (BitVec w)) :
    r.tick x top = { r with psc := (r.tick x top).psc, cnt := (r.tick x top).cnt } := by
  unfold TimerRegs.tick
  split
  · rfl
  · split <;> rfl

theorem TimerRegs.tick_clearCount {w : Nat} (r : TimerRegs w) (x : Bool) (top : Option (BitVec w)) :
    (r.tick x top).clearCount = r.clearCount := by
  rw [r.tick_frame x top]; rfl

@[simp] theorem com_tick (b : Block) (t : Timer) (s : SubChannel) : b.tick.com t s = b.com t s := by
  unfold Block.tick
  split
  · rfl
  · cases t <;> simp only [Block.com] <;> rw [TimerRegs.tick_frame] <;> cases s <;> rfl

@[simp] theorem ocr_tick (b : Block) (t : Timer) (s : SubChannel) : b.tick.ocr t s = b.ocr t s := by
  unfold Block.tick
  split
  · rfl
  · cases t <;> simp only [Block.ocr] <;> rw [TimerRegs.tick_frame] <;> cases s <;> rfl

@[simp] theorem wgm_tick (b : Block) (t : Timer) : b.tick.wgm t = b.wgm t := by
  unfold Block.tick
  split
  · rfl
  · cases t <;> simp only [Block.wgm] <;> rw [TimerRegs.tick_frame]

@[simp] theorem cs_tick (b : Block) (t : Timer) : b.tick.cs t = b.cs t := by
  unfold Block.tick
  split
  · rfl
  · cases t <;> simp only [Block.cs] <;> rw [TimerRegs.tick_frame]

/-- A tick leaves everything but PSC and CNT alone (R183). -/
@[simp] theorem withoutCounts_tick (b : Block) : b.tick.withoutCounts = b.withoutCounts := by
  unfold Block.tick
  split
  · rfl
  · simp [Block.withoutCounts, TimerRegs.tick_clearCount]

/-- While HALT = 1 a tick changes nothing (R183, R226). -/
theorem tick_halted {b : Block} (h : b.halt = true) : b.tick = b := by simp [Block.tick, h]

/-! ## What the latch is shown -/

/-- A pin that is not driven reads 0 in PINOUT and shows the latch nothing (R188; log 8). -/
theorem drivenLevel_undriven {b : Block} {p : Pin} (h : pinBit b.dir p = false) :
    b.out p = false ∧ b.drivenLevel p = none := by
  simp [Block.out, Block.drivenLevel, Block.outputEnable, h]

/-- A pin that is driven shows the latch its OUT (R188, R190). -/
theorem drivenLevel_driven {b : Block} {p : Pin} (h : pinBit b.dir p = true) : b.drivenLevel p = some (b.out p) := by
  simp [Block.drivenLevel, Block.outputEnable, h]

end Sys2Proof.Machine
end

