-- ==== Sys2Proof/Laws/MicroOps.lean ====
section
/-! SUPPORT. What each micro-operation does, in terms of the updates of the state, and what none of them touches. -/

namespace Sys2Proof.Machine

@[simp] theorem perform_setMode (b : Block) (m : Mode) : b.perform (.setMode m) = { b with mode := m } := rfl

@[simp] theorem perform_syncHalt (b : Block) : b.perform .syncHalt = { b with halt := true, psrst := true } := rfl

@[simp] theorem perform_syncClear (b : Block) : b.perform .syncClear = b.withoutCounts := rfl

@[simp] theorem perform_syncRelease (b : Block) :
    b.perform .syncRelease = { b with halt := false, psrst := false } := rfl

@[simp] theorem perform_initFinish (b : Block) : b.perform .initFinish = { b with initDone := true } := rfl

@[simp] theorem perform_encStore (b : Block) (code : Code) : b.perform (.encStore code) = b.opEncStore code := rfl

@[simp] theorem perform_config (b : Block) (t : Timer) (x y : Bool) :
    b.perform (.config t x y) = b.opConfig t x y := rfl

@[simp] theorem perform_qhiStore (b : Block) (t : Timer) (half : Half) :
    b.perform (.qhiStore t half) = { b with qIsHigh := isHighHalf b.mode t half } := rfl

@[simp] theorem perform_writeOcr (b : Block) (t : Timer) (s : SubChannel) (v : BitVec 16) :
    b.perform (.writeOcr t s v) = b.setOcr t s v := rfl

@[simp] theorem perform_setDir (b : Block) (p : Pin) : b.perform (.setDir p) = b.setDir p := rfl

@[simp] theorem perform_static (b : Block) (p : Pin) (v : Bool) :
    b.perform (.static p v) = (b.setCom (tmr p) (subch p) comOff).setLvl p v := rfl

@[simp] theorem perform_setLvl (b : Block) (p : Pin) (v : Bool) : b.perform (.setLvl p v) = b.setLvl p v := rfl

@[simp] theorem perform_saveCom (b : Block) (p : Pin) :
    b.perform (.saveCom p) = b.opSaveCom p := rfl

@[simp] theorem perform_restoreCom (b : Block) (p : Pin) :
    b.perform (.restoreCom p) = b.setCom (tmr p) (subch p) b.savedCom := rfl

/-! ## SAVE_COM -/

@[simp] theorem opSaveCom_savedCom (b : Block) (p : Pin) : (b.opSaveCom p).savedCom = b.com (tmr p) (subch p) := rfl

@[simp] theorem opSaveCom_cmdreg (b : Block) (p : Pin) : (b.opSaveCom p).cmdreg = b.cmdreg := rfl

@[simp] theorem opSaveCom_upc (b : Block) (p : Pin) : (b.opSaveCom p).upc = b.upc := rfl

@[simp] theorem opSaveCom_busy (b : Block) (p : Pin) : (b.opSaveCom p).busy = b.busy := rfl

@[simp] theorem opSaveCom_initDone (b : Block) (p : Pin) : (b.opSaveCom p).initDone = b.initDone := rfl

@[simp] theorem opSaveCom_mode (b : Block) (p : Pin) : (b.opSaveCom p).mode = b.mode := rfl

@[simp] theorem opSaveCom_halt (b : Block) (p : Pin) : (b.opSaveCom p).halt = b.halt := rfl

@[simp] theorem opSaveCom_psrst (b : Block) (p : Pin) : (b.opSaveCom p).psrst = b.psrst := rfl

@[simp] theorem opSaveCom_encLow (b : Block) (p : Pin) : (b.opSaveCom p).encLow = b.encLow := rfl

@[simp] theorem opSaveCom_encHigh (b : Block) (p : Pin) : (b.opSaveCom p).encHigh = b.encHigh := rfl

@[simp] theorem opSaveCom_encFullOff (b : Block) (p : Pin) : (b.opSaveCom p).encFullOff = b.encFullOff := rfl

@[simp] theorem opSaveCom_encFullOn (b : Block) (p : Pin) : (b.opSaveCom p).encFullOn = b.encFullOn := rfl

@[simp] theorem opSaveCom_qIsHigh (b : Block) (p : Pin) : (b.opSaveCom p).qIsHigh = b.qIsHigh := rfl

@[simp] theorem opSaveCom_aux1 (b : Block) (p : Pin) : (b.opSaveCom p).aux1 = b.aux1 := rfl

@[simp] theorem opSaveCom_pri (b : Block) (p : Pin) : (b.opSaveCom p).pri = b.pri := rfl

@[simp] theorem opSaveCom_aux2 (b : Block) (p : Pin) : (b.opSaveCom p).aux2 = b.aux2 := rfl

@[simp] theorem opSaveCom_priTop (b : Block) (p : Pin) : (b.opSaveCom p).priTop = b.priTop := rfl

@[simp] theorem opSaveCom_dir (b : Block) (p : Pin) : (b.opSaveCom p).dir = b.dir := rfl

@[simp] theorem opSaveCom_lvl (b : Block) (p : Pin) : (b.opSaveCom p).lvl = b.lvl := rfl

@[simp] theorem opSaveCom_faults (b : Block) (p : Pin) : (b.opSaveCom p).faults = b.faults := rfl

@[simp] theorem com_opSaveCom (b : Block) (p : Pin) (t : Timer) (s : SubChannel) :
    (b.opSaveCom p).com t s = b.com t s := by cases t <;> rfl

@[simp] theorem ocr_opSaveCom (b : Block) (p : Pin) (t : Timer) (s : SubChannel) :
    (b.opSaveCom p).ocr t s = b.ocr t s := by cases t <;> rfl

@[simp] theorem wgm_opSaveCom (b : Block) (p : Pin) (t : Timer) : (b.opSaveCom p).wgm t = b.wgm t := by
  cases t <;> rfl

@[simp] theorem cs_opSaveCom (b : Block) (p : Pin) (t : Timer) : (b.opSaveCom p).cs t = b.cs t := by
  cases t <;> rfl

@[simp] theorem cnt_opSaveCom (b : Block) (p : Pin) (t : Timer) : (b.opSaveCom p).cnt t = b.cnt t := by
  cases t <;> rfl

@[simp] theorem psc_opSaveCom (b : Block) (p : Pin) (t : Timer) : (b.opSaveCom p).psc t = b.psc t := by
  cases t <;> rfl

/-! ## CONFIG -/

/-- The COM field of a sub-channel after CONFIG: the polarity where it is enabled, else as before (R281, R283). -/
theorem TimerRegs.com_config {w : Nat} (r : TimerRegs w) (wgm : BitVec 2) (cs : BitVec 3) (pol : BitVec 2) (x y : Bool)
    (s : SubChannel) :
    (r.config wgm cs pol x y).com s = if (if s = .a then x else y) = true then pol else r.com s := by
  cases s <;> simp [TimerRegs.config, TimerRegs.com]

@[simp] theorem TimerRegs.ocr_config {w : Nat} (r : TimerRegs w) (wgm : BitVec 2) (cs : BitVec 3) (pol : BitVec 2)
    (x y : Bool) (s : SubChannel) : (r.config wgm cs pol x y).ocr s = r.ocr s := by cases s <;> rfl

/-- The polarity CONFIG gives a timer (R281, R285). -/
def polarityOf (m : Mode) : Timer → BitVec 2
  | .pri => comNoninv
  | .aux1 => comOfRole (role m .aux1)
  | .aux2 => comOfRole (role m .aux2)

/-- The CS CONFIG gives a timer (R281). -/
def selectOf (m : Mode) : Timer → BitVec 3
  | .pri => csDiv1
  | .aux1 => csOfRole (role m .aux1)
  | .aux2 => csOfRole (role m .aux2)

/-- The WGM CONFIG gives a timer (R281). -/
def waveformOf : Timer → BitVec 2
  | .pri => wgmFpwmTop
  | .aux1 => wgmFpwm8
  | .aux2 => wgmFpwm8

theorem com_opConfig (b : Block) (t t' : Timer) (x y : Bool) (s : SubChannel) :
    (b.opConfig t x y).com t' s =
      if t' = t ∧ (if s = .a then x else y) = true then polarityOf b.mode t else b.com t' s := by
  cases t <;> cases t' <;> simp [Block.opConfig, Block.com, TimerRegs.com_config, polarityOf]

theorem cs_opConfig (b : Block) (t t' : Timer) (x y : Bool) :
    (b.opConfig t x y).cs t' = if t' = t then selectOf b.mode t else b.cs t' := by
  cases t <;> cases t' <;> rfl

theorem wgm_opConfig (b : Block) (t t' : Timer) (x y : Bool) :
    (b.opConfig t x y).wgm t' = if t' = t then waveformOf t else b.wgm t' := by
  cases t <;> cases t' <;> rfl

@[simp] theorem ocr_opConfig (b : Block) (t t' : Timer) (x y : Bool) (s : SubChannel) :
    (b.opConfig t x y).ocr t' s = b.ocr t' s := by cases t <;> cases t' <;> cases s <;> rfl

@[simp] theorem cnt_opConfig (b : Block) (t t' : Timer) (x y : Bool) : (b.opConfig t x y).cnt t' = b.cnt t' := by
  cases t <;> cases t' <;> rfl

@[simp] theorem psc_opConfig (b : Block) (t t' : Timer) (x y : Bool) : (b.opConfig t x y).psc t' = b.psc t' := by
  cases t <;> cases t' <;> rfl

theorem priTop_opConfig (b : Block) (t : Timer) (x y : Bool) :
    (b.opConfig t x y).priTop = if t = .pri then 0xFFFF#16 else b.priTop := by cases t <;> rfl

/-- CONFIG leaves everything but the timers and TOP alone (R281). -/
theorem opConfig_frame (b : Block) (t : Timer) (x y : Bool) :
    b.opConfig t x y = { b with
      aux1 := (b.opConfig t x y).aux1, pri := (b.opConfig t x y).pri, aux2 := (b.opConfig t x y).aux2,
      priTop := (b.opConfig t x y).priTop } := by cases t <;> rfl

@[simp] theorem opConfig_cmdreg (b : Block) (t : Timer) (x y : Bool) : (b.opConfig t x y).cmdreg = b.cmdreg := by
  cases t <;> rfl

@[simp] theorem opConfig_upc (b : Block) (t : Timer) (x y : Bool) : (b.opConfig t x y).upc = b.upc := by
  cases t <;> rfl

@[simp] theorem opConfig_busy (b : Block) (t : Timer) (x y : Bool) : (b.opConfig t x y).busy = b.busy := by
  cases t <;> rfl

@[simp] theorem opConfig_initDone (b : Block) (t : Timer) (x y : Bool) : (b.opConfig t x y).initDone = b.initDone := by
  cases t <;> rfl

@[simp] theorem opConfig_mode (b : Block) (t : Timer) (x y : Bool) : (b.opConfig t x y).mode = b.mode := by
  cases t <;> rfl

@[simp] theorem opConfig_halt (b : Block) (t : Timer) (x y : Bool) : (b.opConfig t x y).halt = b.halt := by
  cases t <;> rfl

@[simp] theorem opConfig_psrst (b : Block) (t : Timer) (x y : Bool) : (b.opConfig t x y).psrst = b.psrst := by
  cases t <;> rfl

@[simp] theorem opConfig_encLow (b : Block) (t : Timer) (x y : Bool) : (b.opConfig t x y).encLow = b.encLow := by
  cases t <;> rfl

@[simp] theorem opConfig_encHigh (b : Block) (t : Timer) (x y : Bool) : (b.opConfig t x y).encHigh = b.encHigh := by
  cases t <;> rfl

@[simp] theorem opConfig_encFullOff (b : Block) (t : Timer) (x y : Bool) : (b.opConfig t x y).encFullOff = b.encFullOff := by
  cases t <;> rfl

@[simp] theorem opConfig_encFullOn (b : Block) (t : Timer) (x y : Bool) : (b.opConfig t x y).encFullOn = b.encFullOn := by
  cases t <;> rfl

@[simp] theorem opConfig_qIsHigh (b : Block) (t : Timer) (x y : Bool) : (b.opConfig t x y).qIsHigh = b.qIsHigh := by
  cases t <;> rfl

@[simp] theorem opConfig_dir (b : Block) (t : Timer) (x y : Bool) : (b.opConfig t x y).dir = b.dir := by
  cases t <;> rfl

@[simp] theorem opConfig_lvl (b : Block) (t : Timer) (x y : Bool) : (b.opConfig t x y).lvl = b.lvl := by
  cases t <;> rfl

@[simp] theorem opConfig_savedCom (b : Block) (t : Timer) (x y : Bool) : (b.opConfig t x y).savedCom = b.savedCom := by
  cases t <;> rfl

@[simp] theorem opConfig_faults (b : Block) (t : Timer) (x y : Bool) : (b.opConfig t x y).faults = b.faults := by
  cases t <;> rfl

/-! ## What no micro-operation touches -/

@[simp] theorem perform_cmdreg (b : Block) (op : MicroOp) : (b.perform op).cmdreg = b.cmdreg := by
  cases op <;> simp [Block.opEncStore, Block.withoutCounts]

@[simp] theorem perform_upc (b : Block) (op : MicroOp) : (b.perform op).upc = b.upc := by
  cases op <;> simp [Block.opEncStore, Block.withoutCounts]

@[simp] theorem perform_busy (b : Block) (op : MicroOp) : (b.perform op).busy = b.busy := by
  cases op <;> simp [Block.opEncStore, Block.withoutCounts]

@[simp] theorem perform_faults (b : Block) (op : MicroOp) : (b.perform op).faults = b.faults := by
  cases op <;> simp [Block.opEncStore, Block.withoutCounts]

/-- SET_MODE alone writes MODE (R223). -/
theorem perform_mode (b : Block) (op : MicroOp) (h : ∀ m, op ≠ .setMode m) : (b.perform op).mode = b.mode := by
  cases op <;> simp_all [Block.opEncStore, Block.withoutCounts]

/-- INIT_FINISH alone writes INIT_DONE (R34). -/
theorem perform_initDone (b : Block) (op : MicroOp) (h : op ≠ .initFinish) :
    (b.perform op).initDone = b.initDone := by
  cases op <;> simp_all [Block.opEncStore, Block.withoutCounts]

/-- SYNC_CLEAR alone writes a counter (R53). -/
theorem perform_cnt (b : Block) (op : MicroOp) (h : op ≠ .syncClear) (t : Timer) :
    (b.perform op).cnt t = b.cnt t := by
  cases op <;> simp_all <;> cases t <;> rfl

/-- SYNC_CLEAR alone writes a divider (R55). -/
theorem perform_psc (b : Block) (op : MicroOp) (h : op ≠ .syncClear) (t : Timer) :
    (b.perform op).psc t = b.psc t := by
  cases op <;> simp_all <;> cases t <;> rfl

@[simp] theorem withoutCounts_withoutCounts (b : Block) : b.withoutCounts.withoutCounts = b.withoutCounts := rfl

end Sys2Proof.Machine
end

