-- ==== Sys2Proof/Laws/PerInstr.lean ====
section
/-! SUPPORT. Families of statements made for each command. -/

namespace Sys2Proof.Laws

/-- The mask of the command's row of the opcode table. -/
def TableRow.mask : Instr → Word
  | .nop => 0xFFFFFFFF#32
  | .initTwo => 0xFFFFFFFF#32
  | .initFour => 0xFFFFFFFF#32
  | .initRev => 0xFFFFFFFF#32
  | .write _ _ => 0xFFFC0000#32
  | .encode _ => 0xFFFF0000#32
  | .ishighAux1 _ => 0xFFFBFFFF#32
  | .ishighPri _ => 0xFFFBFFFF#32
  | .ishighAux2 _ => 0xFFFBFFFF#32

/-- The match of the command's row of the opcode table. -/
def TableRow.fixedBits : Instr → Word
  | .nop => 0x00000000#32
  | .initTwo => 0x10010000#32
  | .initFour => 0x10020000#32
  | .initRev => 0x10030000#32
  | .write _ _ => 0x20000000#32
  | .encode _ => 0x30000000#32
  | .ishighAux1 _ => 0x40000000#32
  | .ishighPri _ => 0x40010000#32
  | .ishighAux2 _ => 0x40020000#32

/-- The encoder writes the fixed bits of the command's row (R142, opcode_table.json). -/
def TableRow.Statement (i : Instr) : Prop := encode i &&& TableRow.mask i = TableRow.fixedBits i

theorem TableRow.nop : TableRow.Statement .nop := by rfl

theorem TableRow.initTwo : TableRow.Statement .initTwo := by rfl

theorem TableRow.initFour : TableRow.Statement .initFour := by rfl

theorem TableRow.initRev : TableRow.Statement .initRev := by rfl

/-- The fixed bits of a packed word do not depend on its CODE. -/
theorem packC32_code_masked (op : BitVec 4) (half : BitVec 1) (sel : BitVec 2) (code : Code) :
    packC32 op half sel code &&& 0xFFFF0000#32 = packC32 op half sel 0#16 := by
  have h : (0xFFFF0000#32 : Word) = (BitVec.allOnes 16) ++ (0#16) := by decide
  unfold packC32
  rw [h, BitVec.and_append, BitVec.and_allOnes]
  simp

theorem TableRow.write (ch : Channel) (code : Code) : TableRow.Statement (.write ch code) := by
  have h : (0xFFFC0000#32 : Word) = 0xFFFF0000#32 &&& 0xFFFC0000#32 := by decide
  unfold TableRow.Statement
  simp only [encode, TableRow.mask, TableRow.fixedBits]
  rw [h, ← BitVec.and_assoc, packC32_code_masked]
  cases ch <;> decide

theorem TableRow.encode (code : Code) : TableRow.Statement (.encode code) := by
  unfold TableRow.Statement
  simp only [Sys2Proof.encode, TableRow.mask, TableRow.fixedBits]
  rw [packC32_code_masked]
  decide

theorem TableRow.ishighAux1 (half : Half) : TableRow.Statement (.ishighAux1 half) := by cases half <;> rfl

theorem TableRow.ishighPri (half : Half) : TableRow.Statement (.ishighPri half) := by cases half <;> rfl

theorem TableRow.ishighAux2 (half : Half) : TableRow.Statement (.ishighAux2 half) := by cases half <;> rfl

end Sys2Proof.Laws
end

