-- ==== Sys2Proof/Laws/Step.lean ====
section
/-! SUPPORT. What one transition can do, said once: a command's transition, then a step of the machine. -/

namespace Sys2Proof.Machine

/-! ## A command's transitions -/

/-- Every meaning is the command's transition with its own word, check and micro-program (R161, R162, R163). -/
theorem exec_eq_transition (i : Instr) (s : State) :
    exec i s = transition (encode i) (commandCheck i s.block) (uprog i s.block.mode) s := by
  cases i <;> rfl

/-- At the sequencer's turn a command does its sequencer step. -/
theorem transition_sequencer {s : State} {rest : List Turn} (h : s.sched = .sequencer :: rest) (w : Word)
    (c : Option FaultCode) (p : List MicroOp) : transition w c p s = sequencerStep p s := by
  simp [transition, h]

/-- At a CMD write a command is issued. -/
theorem transition_cmdWrite {s : State} {v : Word} {rest : List Turn} (h : s.sched = cmdWrite v :: rest) (w : Word)
    (c : Option FaultCode) (p : List MicroOp) : transition w c p s = .next (issue w c p s) := by
  simp [transition, h, cmdWrite]

/-- A sequencer step that answers a next state either was not enabled, or performed the micro-operation at UPC. -/
theorem sequencerStep_next {p : List MicroOp} {s t : State} (h : sequencerStep p s = .next t) :
    (s.block.busy = false ∧ t = s.pop) ∨
    (s.block.busy = true ∧ ∃ op, p[s.block.upc.toNat]? = some op ∧ t = s.done (s.block.afterOp op p.length)) := by
  unfold sequencerStep at h
  split at h
  · next hb =>
    split at h
    · next op hop => cases h; exact .inr ⟨hb, op, hop, rfl⟩
    · cases h
  · next hb => cases h; exact .inl ⟨by simpa using hb, rfl⟩

/-- Issuing either raises a fault or accepts. -/
theorem issue_cases (w : Word) (c : Option FaultCode) (p : List MicroOp) (s : State) :
    (∃ code, issue w c p s = s.done (s.block.raise code w)) ∨
    (s.block.busy = false ∧ c = none ∧ issue w c p s = s.done (s.block.accept w p)) := by
  unfold issue
  split
  · exact .inl ⟨.cmdBusy, rfl⟩
  · next hb =>
    cases c with
    | some code => exact .inl ⟨code, rfl⟩
    | none => exact .inr ⟨by simpa using hb, rfl, rfl⟩

/-! ## Fetching -/

theorem commandOf_some {w : Word} {i : Instr} : commandOf w = some i ↔ decode w = .command i := by
  unfold commandOf
  cases decode w <;> simp

@[simp] theorem commandWord_cmdWrite (w : Word) :
    commandWord (.write .word 0x00#8 w) = some w := rfl

/-- The turn that a step takes: the settled one, or SCHED's choice. -/
theorem scheduled_cons (s : State) : ∃ turn rest, s.scheduled.sched = turn :: rest := by
  unfold State.scheduled
  cases h : s.sched with
  | nil => exact ⟨_, _, rfl⟩
  | cons turn rest => exact ⟨turn, rest, h⟩

/-- With a turn settled, SCHED is not asked. -/
theorem scheduled_of_cons {s : State} {turn : Turn} {rest : List Turn} (h : s.sched = turn :: rest) :
    s.scheduled = s := by
  simp [State.scheduled, h]

/-- A step at a settled turn. -/
theorem step_of_cons {s : State} {turn : Turn} {rest : List Turn} (h : s.sched = turn :: rest) :
    step s = match fetch s with | some i => exec i s | none => agentTurn s := by
  cases hf : fetch s <;> simp [step, scheduled_of_cons h, hf]

/-- The turn at the head is taken. -/
theorem pop_of_cons {s : State} {turn : Turn} {rest : List Turn} (h : s.sched = turn :: rest) :
    s.pop = { s with sched := rest } := by
  cases s
  simp_all [State.pop]

/-- The turn at the head is taken and the block takes a new value. -/
theorem done_of_cons {s : State} {turn : Turn} {rest : List Turn} (h : s.sched = turn :: rest) (b : Block) :
    s.done b = { s with sched := rest, block := b } := by
  cases s
  simp_all [State.done, State.pop]

/-- What a step may make of the block: nothing, a tick, a reset, a recorded fault, an acceptance, or one
micro-operation. -/
inductive BlockStep (turn : Turn) (b : Block) : Block → Prop
  /-- A read of a mapped register, a turn the sequencer is not enabled for, or an ignored access. -/
  | same : BlockStep turn b b
  | tick (h : turn = .tick) : BlockStep turn b b.tick
  | reset (h : turn = .reset) : BlockStep turn b Block.reset
  | fault (x : Access) (code : FaultCode) (w : Word) (hturn : turn = .host x) : BlockStep turn b (b.raise code w)
  | accept (w : Word) (i : Instr) (hw : decode w = .command i) (hturn : turn = cmdWrite w)
      (hidle : b.busy = false) (hcheck : commandCheck i b = none) :
      BlockStep turn b (b.accept (encode i) (uprog i b.mode))
  | op (i : Instr) (o : MicroOp) (hturn : turn = .sequencer) (hbusy : b.busy = true)
      (hcmd : decode b.cmdreg = .command i) (hop : (uprog i b.mode)[b.upc.toNat]? = some o) :
      BlockStep turn b (b.afterOp o (uprog i b.mode).length)

/-- A CMD write is the only access that carries a command word. -/
theorem commandWord_some {x : Access} {w : Word} (h : commandWord x = some w) : x = .write .word 0x00#8 w := by
  unfold commandWord at h
  cases x with
  | read size off => cases h
  | write size off v =>
    simp only [Access.wellFormed, Access.wordSized, Access.size, Bool.and_eq_true, beq_iff_eq,
      Option.ite_none_right_eq_some, Option.some.injEq] at h
    obtain ⟨⟨⟨rfl, _⟩, rfl⟩, rfl⟩ := h
    rfl

/-- A step at a settled turn, all that it can do: it takes that turn, and the block changes in one of the ways of
`BlockStep`. -/
theorem step_next_of_cons {s t : State} {turn : Turn} {rest : List Turn} (hs : s.sched = turn :: rest)
    (h : step s = .next t) : t.sched = rest ∧ t.slot = s.slot ∧ BlockStep turn s.block t.block := by
  unfold step at h
  rw [scheduled_of_cons hs] at h
  split at h
  · next i hf =>
    rw [exec_eq_transition] at h
    simp only [fetch, hs] at hf
    cases turn with
    | host x =>
      obtain ⟨w, hx, hw⟩ := Option.bind_eq_some_iff.mp hf
      have hx := commandWord_some hx
      subst hx
      have hw := commandOf_some.mp hw
      rw [transition_cmdWrite (v := w) hs] at h
      cases h
      rcases issue_cases (encode i) (commandCheck i s.block) (uprog i s.block.mode) s with ⟨c, e⟩ | ⟨hb, hc, e⟩
      · rw [e]; exact ⟨by simp [hs], by simp, by simpa using BlockStep.fault _ c _ rfl⟩
      · rw [e]; exact ⟨by simp [hs], by simp, BlockStep.accept w i hw rfl hb hc⟩
    | sequencer =>
      rw [transition_sequencer hs] at h
      rcases sequencerStep_next h with ⟨hb, rfl⟩ | ⟨hb, op, hop, rfl⟩
      · exact ⟨by simp [hs], by simp, by simpa using BlockStep.same⟩
      · simp only [hb, if_true] at hf
        exact ⟨by simp [hs], by simp, by simpa using BlockStep.op i op rfl hb (commandOf_some.mp hf) hop⟩
    | tick => simp at hf
    | reset => simp at hf
  · simp only [agentTurn, hs] at h
    cases turn with
    | host x =>
      simp only [hostTurn] at h
      split at h
      · cases x with
        | read size off =>
          cases h
          unfold hostRead
          split
          · exact ⟨by simp [hs], by simp, by simpa using BlockStep.same⟩
          · exact ⟨by simp [hs], by simp, by simpa using BlockStep.fault _ _ _ rfl⟩
        | write size off v =>
          simp only at h
          split at h
          · cases h
            unfold issueReserved
            split
            · exact ⟨by simp [hs], by simp, by simpa using BlockStep.fault _ _ _ rfl⟩
            · exact ⟨by simp [hs], by simp, by simpa using BlockStep.same⟩
          · cases h
            exact ⟨by simp [hostWriteIgnored, hs], by simp [hostWriteIgnored],
              by simpa [hostWriteIgnored] using BlockStep.fault _ _ _ rfl⟩
      · cases h
    | sequencer =>
      simp only [idleSequencer] at h
      split at h
      · cases h
      · cases h
        exact ⟨by simp [hs], by simp, by simpa using BlockStep.same⟩
    | tick => cases h; exact ⟨by simp [tickTurn, hs], by simp [tickTurn], by simpa [tickTurn] using BlockStep.tick rfl⟩
    | reset =>
      cases h; exact ⟨by simp [resetTurn, hs], by simp [resetTurn], by simpa [resetTurn] using BlockStep.reset rfl⟩

/-- A step, all that it can do to the block, whoever settled the turn. -/
theorem step_next_block {s t : State} (h : step s = .next t) : ∃ turn, BlockStep turn s.block t.block := by
  obtain ⟨turn, rest, hs⟩ := scheduled_cons s
  have h' : step s.scheduled = .next t := by
    rw [← h]
    simp only [step, scheduled_of_cons hs]
  obtain ⟨_, _, hb⟩ := step_next_of_cons hs h'
  exact ⟨turn, by simpa using hb⟩

end Sys2Proof.Machine
end

