-- ==== Sys2Proof/Laws/Programs.lean ====
section
/-! SUPPORT. Micro-programs as wholes: that UPC holds their lengths, and that running one is performing its
micro-operations. -/

namespace Sys2Proof.Machine

/-- No micro-operation reads CMDREG, UPC or BUSY (R160, R164). -/
theorem perform_ofSequencer (b : Block) (op : MicroOp) (w : Word) (u : BitVec 4) (x : Bool) :
    ({ b with cmdreg := w, upc := u, busy := x } : Block).perform op =
      { b.perform op with cmdreg := w, upc := u, busy := x } := by
  cases op with
  | config t => cases t <;> rfl
  | writeOcr t => cases t <;> rfl
  | static p v =>
    simp only [perform_static, Block.setCom]
    generalize tmr p = t
    cases t <;> rfl
  | saveCom p =>
    simp only [perform_saveCom, Block.opSaveCom]
    generalize tmr p = t
    cases t <;> rfl
  | restoreCom p =>
    simp only [perform_restoreCom, Block.setCom]
    generalize tmr p = t
    cases t <;> rfl
  | _ => rfl

/-- The same of a whole list of them. -/
theorem performAll_ofSequencer (ops : List MicroOp) (b : Block) (w : Word) (u : BitVec 4) (x : Bool) :
    ({ b with cmdreg := w, upc := u, busy := x } : Block).performAll ops =
      { b.performAll ops with cmdreg := w, upc := u, busy := x } := by
  simp only [Block.performAll]
  induction ops generalizing b with
  | nil => rfl
  | cons op ops ih => rw [List.foldl_cons, List.foldl_cons, perform_ofSequencer, ih]

/-- The members of a WRITE's micro-program are none of INIT's, ENCODE's or ISHIGH's micro-operations. -/
theorem mem_writeProgram {m : Mode} {ch : Channel} {code : Code} {op : MicroOp} (h : op ∈ writeProgram m ch code) :
    (∀ n, op ≠ .setMode n) ∧ op ≠ .syncHalt ∧ op ≠ .syncClear ∧ op ≠ .syncRelease ∧ op ≠ .initFinish ∧
      (∀ c, op ≠ .encStore c) ∧ ∀ t half, op ≠ .qhiStore t half := by
  cases op <;> simp
  all_goals
    unfold writeProgram primaryProgram auxiliaryProgram zeroProgram ocrProgram clearProgram configHalf at h
    split at h
    · split at h
      · dsimp only at h
        split_ifs at h <;> simp at h
      · dsimp only at h
        split_ifs at h <;> simp at h <;> (split at h <;> split at h <;> simp at h)
    · simp at h

/-- A command other than INIT writes no MODE (R43, R223). -/
theorem uprog_perform_mode {i : Instr} {m : Mode} {op : MicroOp} (h : op ∈ uprog i m) (hi : i.isInit = false)
    (b : Block) : (b.perform op).mode = b.mode := by
  apply perform_mode
  rintro n rfl
  cases i with
  | write ch code => exact (mem_writeProgram h).1 n rfl
  | _ => simp [uprog, Instr.isInit] at h hi

/-- The micro-program of the command in progress does not change under it (R32, R161). -/
theorem uprog_perform {i : Instr} {m : Mode} {op : MicroOp} (h : op ∈ uprog i m) (b : Block)
    (hb : uprog i b.mode = uprog i m) : uprog i (b.perform op).mode = uprog i m := by
  by_cases hi : i.isInit = true
  · cases i <;> simp [Instr.isInit] at hi <;> rfl
  · rw [uprog_perform_mode h (by simpa using hi), hb]

/-- UPC is wide enough for every micro-program (R31). -/
theorem uprog_length_lt (i : Instr) (m : Mode) : (uprog i m).length < 16 := by
  cases i with
  | write ch code =>
    simp only [uprog]
    unfold writeProgram primaryProgram auxiliaryProgram zeroProgram ocrProgram clearProgram
    split
    · split
      · dsimp only
        split_ifs <;> simp
      · dsimp only
        split_ifs <;> simp <;> (split <;> split <;> simp)
    · simp
  | _ => simp [uprog, initProgram, syncProgram, fourChannel]

/-- A run goes on with the state its first step answers. -/
theorem run_succ {s t : State} (n : Nat) (h : step s = .next t) :
    Host.Core.run Sys2Proof.core (n + 1) s = Host.Core.run Sys2Proof.core n t := by
  refine (Host.Core.run.eq_2 Sys2Proof.core s n).trans ?_
  rw [show Sys2Proof.core.step s = .next t from h]

end Sys2Proof.Machine
end

