-- ==== Sys2Proof/Tests/Slice0.lean ====
section
/-! SUPPORT. Tests of one step each, with results worked from the spec, and a witness for each statement that has
hypotheses. -/

namespace Sys2Proof.Machine.Tests

/-! ## Small states -/

/-- A machine with this block, these turns settled, and nothing read yet. -/
def stateOf (b : Block) (turns : List Turn) : State := { block := b, rdata := 0#32, sched := turns, slot := 0 }

/-- The block after reset with the mode and INIT_DONE given. -/
def blockIn (m : Mode) (done : Bool) : Block := { Block.reset with mode := m, initDone := done }

/-- The block of mode FOUR as INIT leaves it (R222, R281). -/
def synced : Block :=
  { Block.reset with
    cmdreg := 0x10020000#32, upc := 8#4, mode := .four, initDone := true, priTop := 0xFFFF#16,
    pri := { TimerRegs.reset 16 with wgm := 2#2, cs := 1#3 },
    aux1 := { TimerRegs.reset 8 with wgm := 1#2, cs := 1#3 },
    aux2 := { TimerRegs.reset 8 with wgm := 1#2, cs := 2#3 } }

/-- A block in mode FOUR with this command in progress, at this micro-operation. -/
def midway (i : Instr) (u : BitVec 4) : Block :=
  { blockIn .four true with cmdreg := encode i, upc := u, busy := true }

/-- The block of a next state; the reset block for a stop. -/
def blockAfter (r : Result) : Block :=
  match r with
  | .next s => s.block
  | .fault _ => Block.reset
  | .refused _ => Block.reset

/-- Whether a step answers a next state. -/
def isNext (r : Result) : Bool :=
  match r with
  | .next _ => true
  | .fault _ => false
  | .refused _ => false

/-! ## Well-formedness -/

theorem test_half_access_ill_formed : (Access.read .half 0x04#8).wellFormed = false := by decide

theorem test_byte_write_ill_formed : (Access.write .byte 0x00#8 0#32).wordSized = false := by decide

theorem test_misaligned_ill_formed : (Access.read .word 0x06#8).aligned = false := by decide

theorem test_word_access_well_formed : (Access.write .word 0x00#8 0#32).wellFormed = true := by decide

theorem test_half_access_refused :
    step (stateOf Block.reset [.host (.read .half 0x04#8)]) = .refused .unadmittedAccess := by rfl

theorem test_misaligned_access_refused :
    step (stateOf Block.reset [.host (.write .word 0x02#8 7#32)]) = .refused .unadmittedAccess := by rfl

/-! ## Decoding: words written out from R141, OP RSV HALF SEL CODE, and the table of 95_test_vectors.md section 2.1 -/

theorem test_decode_nop : decode (0b0000#4 ++ 0#9 ++ 0#1 ++ 0b00#2 ++ 0#16) = .command .nop := by decide

theorem test_decode_init_two : decode (0b0001#4 ++ 0#9 ++ 0#1 ++ 0b01#2 ++ 0#16) = .command .initTwo := by decide

theorem test_decode_init_four : decode (0b0001#4 ++ 0#9 ++ 0#1 ++ 0b10#2 ++ 0#16) = .command .initFour := by decide

theorem test_decode_init_rev : decode (0b0001#4 ++ 0#9 ++ 0#1 ++ 0b11#2 ++ 0#16) = .command .initRev := by decide

theorem test_decode_write :
    decode (0b0010#4 ++ 0#9 ++ 0#1 ++ 0b10#2 ++ 0x1234#16) = .command (.write .ch1A 0x1234#16) := by decide

theorem test_decode_encode :
    decode (0b0011#4 ++ 0#9 ++ 0#1 ++ 0b00#2 ++ 0x00FF#16) = .command (.encode 0x00FF#16) := by decide

theorem test_decode_ishigh_aux1 :
    decode (0b0100#4 ++ 0#9 ++ 1#1 ++ 0b00#2 ++ 0#16) = .command (.ishighAux1 .high) := by decide

theorem test_decode_ishigh_pri :
    decode (0b0100#4 ++ 0#9 ++ 0#1 ++ 0b01#2 ++ 0#16) = .command (.ishighPri .low) := by decide

theorem test_decode_ishigh_aux2 :
    decode (0b0100#4 ++ 0#9 ++ 0#1 ++ 0b10#2 ++ 0#16) = .command (.ishighAux2 .low) := by decide

theorem test_decode_nop_bit : decode 0x08000000#32 = .reservedField := by decide

theorem test_decode_init_code : decode 0x10010001#32 = .reservedField := by decide

theorem test_decode_write_bit_19 : decode 0x20080000#32 = .reservedField := by decide

theorem test_decode_ishigh_sel : decode 0x40070000#32 = .reservedField := by decide

theorem test_decode_opcode_15 : decode 0xF0000000#32 = .reservedOpcode := by decide

theorem test_table_word : decodeTableWord 32 0x40040000 = some (.ishighAux1 .high) := by decide

theorem test_assembly_of_write : (Instr.write .ch0A 0x0100#16).assembly = "WRITE CH_0A, #256" := by decide

theorem test_pseudo_on : encode (.pseudoOn .ch0A) = 0x2000FFFF#32 := by decide

/-! ## Commands (95_test_vectors.md) -/

/-- NOP is accepted and leaves BUSY at 0 (R220). -/
theorem test_nop : (blockAfter (exec .nop (stateOf Block.reset [cmdWrite 0#32]))).busy = false := by decide

/-- INIT TWO sets the mode first (R222, R223). -/
theorem test_init_two_sets_mode :
    (blockAfter (exec .initTwo (stateOf (midway .initTwo 0#4) [.sequencer]))).mode = .two := by decide

/-- INIT FOUR is refused once the mode is set: FAULTS gains (REINIT, w) (R381). -/
theorem test_init_four_twice :
    (blockAfter (exec .initFour (stateOf synced [cmdWrite 0x10020000#32]))).faults =
      [{ code := .reinit, info := 0x10020000#32 }] := by decide

/-- INIT REV gives AUX1 the high half: its CTRL is FPWM8 with DIV256, 0x021 (R281, R302). -/
theorem test_init_rev_configures_aux1 :
    (blockAfter (exec .initRev (stateOf { midway .initRev 2#4 with mode := .rev } [.sequencer]))).ctrl .aux1 = 0x021#12 := by
  decide

/-- A WRITE before INIT is refused (R320, R381). -/
theorem test_write_before_init :
    (blockAfter (exec (.write .ch1A 5#16) (stateOf Block.reset [cmdWrite 0x20020005#32]))).faults =
      [{ code := .writeBeforeInit, info := 0x20020005#32 }] := by decide

/-- WRITE CH_0A, #0x0100 writes compare value 0 to the high half last but one: byte 1 less 1 (R331, section 1.8). -/
theorem test_write_compare_value :
    (writeProgram .four .ch0A 0x0100#16)[4]? = some (.writeOcr .aux2 .a 0x0000#16) := by decide

/-- ENCODE #0x1234 leaves bytes 0x12 and 0x35 (section 1.3). -/
theorem test_encode :
    (blockAfter (exec (.encode 0x1234#16) (stateOf (midway (.encode 0x1234#16) 0#4) [.sequencer]))).encresWord =
      0x00001235#32 := by decide

/-- ENCODE #0x0000 leaves FULL_OFF alone (section 1.4). -/
theorem test_encode_off :
    (blockAfter (exec (.encode 0#16) (stateOf (midway (.encode 0#16) 0#4) [.sequencer]))).encresWord =
      0x00010000#32 := by decide

/-- In mode FOUR, ISHIGH AUX1, HIGH answers 0 (section 1.5). -/
theorem test_ishigh_aux1 :
    (blockAfter (exec (.ishighAux1 .high) (stateOf { midway (.ishighAux1 .high) 0#4 with qIsHigh := true }
      [.sequencer]))).qIsHigh = false := by decide

/-- In mode FOUR, ISHIGH PRI, HIGH answers 0 ^ 0 ^ 1 (R300). -/
theorem test_ishigh_pri :
    (blockAfter (exec (.ishighPri .high) (stateOf (midway (.ishighPri .high) 0#4) [.sequencer]))).qIsHigh = true := by
  decide

/-- In mode FOUR, ISHIGH AUX2, LOW answers 0 (R303). -/
theorem test_ishigh_aux2 :
    (blockAfter (exec (.ishighAux2 .low) (stateOf { midway (.ishighAux2 .low) 0#4 with qIsHigh := true }
      [.sequencer]))).qIsHigh = false := by decide

/-! ## Other turns -/

/-- After INIT FOUR, STATUS reads 0x22: INIT_DONE and MODE = 10 (R44). -/
theorem test_status_word : synced.readReg .status = 0x22#32 := by decide

/-- A write to a read-only register is a bad access (R105). -/
theorem test_read_only_write :
    (blockAfter (step (stateOf Block.reset [.host (.write .word 0x80#8 0x3F#32)]))).faults =
      [{ code := .badAccess, info := 0x80#32 }] := by decide

/-- A reserved word while busy raises CMD_BUSY first (R385). -/
theorem test_busy_before_reserved :
    (blockAfter (step (stateOf (midway .initFour 3#4) [cmdWrite 0x50000000#32]))).faults =
      [{ code := .cmdBusy, info := 0x50000000#32 }] := by decide

/-- Five ticks after INIT FOUR: AUX2 still at 0, its divider at 5 (section 1.7). -/
theorem test_five_ticks : ((Block.ticks 5 synced).cnt .pri, (Block.ticks 5 synced).psc .aux2) = (5#16, 5#8) := by decide

/-- A model fault twice is one member of FAULTS, and the order of raising does not show (R60). -/
theorem test_faults_are_a_set :
    ((Block.reset.raise .reinit 2#32).raise .cmdBusy 9#32).raise .reinit 2#32 =
      (Block.reset.raise .cmdBusy 9#32).raise .reinit 2#32 := by decide

/-- The sequencer's turn passes when nothing is in progress (R163). -/
theorem test_idle_sequencer : step (stateOf synced [.sequencer]) = .next (stateOf synced []) := by rfl

/-- `poll` reads STATUS again while bit 0 is 1, and goes on when it is 0 (R151). -/
theorem test_poll :
    hostNext [.pollAgain, .rd 0x84#8] 1#32 = some (.read .word 0x04#8, [.pollAgain, .rd 0x84#8]) ∧
    hostNext [.pollAgain, .rd 0x84#8] 2#32 = some (.read .word 0x84#8, []) := by decide

/-! ## Witnesses: states and operands that meet the hypotheses of the statements -/

theorem witness_DecodeReadsBackEveryEncodedCommand : (Instr.write .ch1B 0xFFFF#16).wellFormed = true := by decide

theorem witness_EveryCommandHasOneWord : decode 0x2003FFFF#32 = .command (.write .ch1B 0xFFFF#16) := by decide

theorem witness_StepRunsTheDecodedCommand :
    ((stateOf Block.reset [cmdWrite 0x10020000#32]).sched = [cmdWrite 0x10020000#32] ∧
      decode 0x10020000#32 = .command .initFour) ∧
    ((stateOf (midway (.encode 1#16) 0#4) [.sequencer]).sched = [.sequencer] ∧
      (midway (.encode 1#16) 0#4).busy = true ∧ decode (midway (.encode 1#16) 0#4).cmdreg = .command (.encode 1#16)) ∧
    State.reset.sched = [] ∧ Instr.wellFormed .nop = true := by decide

theorem witness_CommandIssue_busy :
    (stateOf (midway .initFour 1#4) [cmdWrite 0#32]).sched = [cmdWrite 0#32] ∧ (midway .initFour 1#4).busy = true := by
  decide

theorem witness_CommandIssue_reservedOpcode :
    (stateOf synced [cmdWrite 0x50000000#32]).sched = [cmdWrite 0x50000000#32] ∧ synced.busy = false ∧
      decode 0x50000000#32 = .reservedOpcode := by decide

theorem witness_CommandIssue_reservedField :
    (stateOf synced [cmdWrite 0x10000000#32]).sched = [cmdWrite 0x10000000#32] ∧ synced.busy = false ∧
      decode 0x10000000#32 = .reservedField := by decide

theorem witness_CommandIssue_reinit :
    (stateOf synced [cmdWrite 0x10010000#32]).sched = [cmdWrite 0x10010000#32] ∧ synced.busy = false ∧
      decode 0x10010000#32 = .command .initTwo ∧ Instr.isInit .initTwo = true ∧ synced.mode ≠ .unset := by decide

theorem witness_CommandIssue_writeBeforeInit :
    (stateOf Block.reset [cmdWrite 0x20000001#32]).sched = [cmdWrite 0x20000001#32] ∧ Block.reset.busy = false ∧
      decode 0x20000001#32 = .command (.write .ch0A 1#16) ∧ Block.reset.initDone = false := by decide

theorem witness_CommandIssue_accepted :
    (stateOf synced [cmdWrite 0x20000001#32]).sched = [cmdWrite 0x20000001#32] ∧ synced.busy = false ∧
      decode 0x20000001#32 = .command (.write .ch0A 1#16) ∧
      ((Instr.write .ch0A 1#16).isInit = true → synced.mode = .unset) ∧ synced.initDone = true := by decide

/-- A write to PINOUT. -/
theorem witness_ATurnThatAddsAFaultHasNoOtherEffect :
    (stateOf synced [.host (.write .word 0x84#8 1#32)]).sched = [.host (.write .word 0x84#8 1#32)] ∧
      step (stateOf synced [.host (.write .word 0x84#8 1#32)]) = .next (stateOf (synced.raise .badAccess 0x84#32) []) ∧
      { code := .badAccess, info := 0x84#32 } ∈ (synced.raise .badAccess 0x84#32).faults ∧
      { code := .badAccess, info := 0x84#32 } ∉ synced.faults := ⟨by rfl, by rfl, by decide, by decide⟩

theorem witness_NopCompletesAtItsAcceptance :
    (stateOf synced [cmdWrite 0x00000000#32]).sched = [cmdWrite 0x00000000#32] ∧ synced.busy = false := by decide

/-- INIT in mode UNSET, WRITE after INIT, and a command without a check of its own. -/
theorem witness_EveryCommandIsAcceptedWhenItsChecksPass :
    ((stateOf Block.reset [cmdWrite (encode .initRev)]).sched = [cmdWrite (encode .initRev)] ∧
      Block.reset.busy = false ∧ (Instr.isInit .initRev = true → Block.reset.mode = .unset)) ∧
    ((stateOf synced [cmdWrite (encode (.write .ch0B 7#16))]).sched = [cmdWrite (encode (.write .ch0B 7#16))] ∧
      synced.busy = false ∧ synced.initDone = true) ∧
    ((stateOf Block.reset [cmdWrite (encode (.ishighPri .low))]).sched = [cmdWrite (encode (.ishighPri .low))] ∧
      Instr.isInit (.ishighPri .low) = false) := by decide

theorem witness_SequencerTurnPerformsOneMicroOperation :
    (stateOf (midway (.write .ch1A 5#16) 2#4) [.sequencer]).sched = [.sequencer] ∧
      (midway (.write .ch1A 5#16) 2#4).busy = true ∧
      (uprog (.write .ch1A 5#16) .four)[(midway (.write .ch1A 5#16) 2#4).upc.toNat]? = some (.writeOcr .pri .a 5#16) := by
  decide

theorem witness_SequencerTurn_notEnabled :
    (stateOf synced [.sequencer]).sched = [.sequencer] ∧ synced.busy = false := by decide

theorem witness_EveryAcceptedCommandRunsItsMicroProgram :
    synced.busy = false ∧ ((Instr.write .ch0A 0xFF#16).isInit = true → synced.mode = .unset) ∧
      (∀ ch code, Instr.write .ch0A 0xFF#16 = .write ch code → synced.initDone = true) ∧
      (stateOf synced (commandTurns (.write .ch0A 0xFF#16) .four)).sched =
        commandTurns (.write .ch0A 0xFF#16) synced.mode ++ [] :=
  ⟨rfl, fun h => absurd h (by decide), fun _ _ _ => rfl, (List.append_nil _).symm⟩

theorem witness_InitAndWriteAreTurnedAway_init :
    (stateOf synced [cmdWrite 0x10010000#32]).sched = [cmdWrite 0x10010000#32] ∧ synced.busy = false ∧
      synced.mode ≠ .unset ∧ Instr.isInit .initTwo = true ∧ encode .initTwo = 0x10010000#32 := by decide

theorem witness_InitAndWriteAreTurnedAway_write :
    (stateOf Block.reset [cmdWrite 0x20000001#32]).sched = [cmdWrite 0x20000001#32] ∧ Block.reset.busy = false ∧
      Block.reset.initDone = false ∧ encode (.write .ch0A 1#16) = 0x20000001#32 := by decide

theorem witness_InitEndsConfiguredAndSynchronized :
    Block.reset.busy = false ∧ Block.reset.mode = .unset ∧
      (stateOf Block.reset (commandTurns .initTwo .unset ++ [])).sched = commandTurns .initTwo .unset ++ [] ∧
      (stateOf Block.reset (commandTurns .initFour .unset ++ [])).sched = commandTurns .initFour .unset ++ [] ∧
      (stateOf Block.reset (commandTurns .initRev .unset ++ [])).sched = commandTurns .initRev .unset ++ [] := by decide

theorem synced_configured :
    synced.priConfigured ∧ synced.auxConfigured .aux1 ∧ synced.auxConfigured .aux2 ∧ synced.countsZero := by
  refine ⟨⟨rfl, rfl, rfl⟩, ⟨rfl, by decide⟩, ⟨rfl, by decide⟩, ?_⟩
  intro t
  cases t <;> decide

theorem witness_CountersTellTheTicksSinceSynchronization :
    fourChannel synced.mode = true ∧ synced.priConfigured ∧ synced.auxConfigured .aux1 ∧
      synced.auxConfigured .aux2 ∧ synced.countsZero ∧ synced.halt = false ∧ synced.psrst = false :=
  ⟨rfl, synced_configured.1, synced_configured.2.1, synced_configured.2.2.1, synced_configured.2.2.2, rfl, rfl⟩

theorem witness_EncodeStores_issue :
    (0x300000FF#32 : Word) = encode (.encode 0xFF#16) ∧
      (stateOf Block.reset [cmdWrite 0x300000FF#32]).sched = [cmdWrite 0x300000FF#32] ∧ Block.reset.busy = false := by
  decide

theorem witness_EncodeStores_store :
    (stateOf (midway (.encode 0xFF#16) 0#4) [.sequencer]).sched = [.sequencer] ∧
      (midway (.encode 0xFF#16) 0#4).busy = true ∧ (midway (.encode 0xFF#16) 0#4).upc = 0#4 := by decide

theorem witness_EncoderFollowsItsTable :
    (0xFFFF#16 : Code) = 0xFFFF#16 ∧ (0x0000#16 : Code) = 0x0000#16 ∧
      (0x00FF#16 ≠ 0xFFFF#16 ∧ 0x00FF#16 ≠ 0x0000#16) := by decide

/-- Both ends of the unflagged range. -/
theorem witness_EncodedBytesGiveBackTheCode :
    (0x0001#16 ≠ 0x0000#16 ∧ 0x0001#16 ≠ 0xFFFF#16) ∧ (0xFFFE#16 ≠ 0x0000#16 ∧ 0xFFFE#16 ≠ 0xFFFF#16) := by decide

theorem witness_ZeroBytesStandWhereTheRuleSays :
    (0x00FE#16 ≠ 0x0000#16 ∧ 0x00FE#16 ≠ 0xFFFF#16) ∧ (0x00FF#16 ≠ 0x0000#16 ∧ 0x00FF#16 ≠ 0xFFFF#16) ∧
      (0x01#8 ≠ 0#8) ∧ (0xFF#8 ≠ 0#8) := by decide

theorem witness_HalfRoleTruthTable : Mode.four ≠ .rev ∧ Mode.rev = .rev := by decide

theorem witness_Ishigh_issue :
    (stateOf Block.reset [cmdWrite (encode (.ishighPri .high))]).sched = [cmdWrite (encode (.ishighPri .high))] ∧
      Block.reset.busy = false := by decide

theorem witness_Ishigh_store :
    (stateOf (midway (.ishighAux2 .low) 0#4) [.sequencer]).sched = [.sequencer] ∧
      (midway (.ishighAux2 .low) 0#4).busy = true ∧ (midway (.ishighAux2 .low) 0#4).upc = 0#4 := by decide

theorem witness_AuxiliaryWriteEndsAsTabulated :
    synced.busy = false ∧ synced.initDone = true ∧ fourChannel synced.mode = true ∧ primaryRouted .ch0B = false ∧
      (stateOf synced (commandTurns (.write .ch0B 0x0200#16) .four)).sched =
        commandTurns (.write .ch0B 0x0200#16) synced.mode ++ [] :=
  ⟨rfl, rfl, rfl, rfl, (List.append_nil _).symm⟩

/-- The statement's other paths on the same block: 0xFFFF, 0x0000, high byte 0 and low byte 0 (R335). -/
theorem witness_AuxiliaryWriteEndsAsTabulated_paths :
    ∀ code ∈ [0xFFFF#16, 0x0000#16, 0x0001#16, 0x00FE#16, 0x00FF#16, 0xFEFF#16],
      synced.busy = false ∧ synced.initDone = true ∧ fourChannel synced.mode = true ∧ primaryRouted .ch0A = false ∧
        (stateOf synced (commandTurns (.write .ch0A code) .four)).sched =
          commandTurns (.write .ch0A code) synced.mode ++ [] :=
  fun _ _ => ⟨rfl, rfl, rfl, rfl, (List.append_nil _).symm⟩

theorem test_auxiliary_paths :
    [0xFFFF#16, 0x0000#16, 0x0001#16, 0x00FF#16, 0x0200#16].map auxiliaryLength = [4, 9, 11, 11, 6] := by decide

theorem witness_PrimaryWriteEndsAsTabulated :
    synced.busy = false ∧ synced.initDone = true ∧
      ((Channel.ch1B = .ch1A ∧ SubChannel.b = .a) ∨ (Channel.ch1B = .ch1B ∧ SubChannel.b = .b)) ∧
      (stateOf synced (commandTurns (.write .ch1B 0x8000#16) .four)).sched =
        commandTurns (.write .ch1B 0x8000#16) synced.mode ++ [] ∧ synced.priConfigured :=
  ⟨rfl, rfl, .inr ⟨rfl, rfl⟩, (List.append_nil _).symm, synced_configured.1⟩

theorem witness_WriteToAnInvalidChannelChangesNothing :
    (blockIn .two true).busy = false ∧ (blockIn .two true).initDone = true ∧ (Channel.ch0A = .ch0A ∨ Channel.ch0A = .ch0B) ∧
      (blockIn .two true).mode ≠ .four ∧ (blockIn .two true).mode ≠ .rev ∧
      (stateOf (blockIn .two true) [cmdWrite (encode (.write .ch0A 9#16))]).sched =
        [cmdWrite (encode (.write .ch0A 9#16))] := by decide

theorem witness_OffDisconnectsTheChannel :
    synced.busy = false ∧ synced.initDone = true ∧ validChannel synced.mode .ch0A = true ∧
      (stateOf synced (commandTurns (.pseudoOff .ch0A) .four)).sched = commandTurns (.pseudoOff .ch0A) synced.mode ++ [] :=
  ⟨rfl, rfl, rfl, (List.append_nil _).symm⟩

theorem witness_ConfigurationPrecedesCompareWrites :
    (uprog (.write .ch0A 0x0100#16) .four)[4]? = some (.writeOcr .aux2 .a 0#16) ∧
    (uprog (.write .ch0A 0x0100#16) .four)[2]? = some (.config .aux2 true false) := by decide

theorem witness_CompareValuesLieInTheirRanges :
    .writeOcr .aux2 .a 0#16 ∈ uprog (.write .ch0A 0x0100#16) .four ∧
    .writeOcr .pri .b 0xFFFE#16 ∈ uprog (.write .ch1B 0xFFFE#16) .two := by decide

theorem synced_timersSynced : synced.timersSynced :=
  ⟨synced_configured.1, synced_configured.2.1, synced_configured.2.2.1, by decide, by decide, by decide, by decide,
    by decide⟩

theorem witness_WritesDoNotDisturbOtherChannels :
    Channel.ch0B ≠ .ch0A ∧ .config .aux2 true false ∈ uprog (.write .ch0A 0x0100#16) synced.mode ∧
      synced.timersSynced :=
  ⟨by decide, by decide, synced_timersSynced⟩

theorem witness_LatchClearEndState : Timer.aux2 ≠ .aux1 := by decide

/-- A block whose pins 0 and 4 are driven. -/
def driven : Block := { synced with dir := 0x11#6 }

theorem witness_LatchClearPinTrace :
    ∃ b1 b2 b3 b4 b5 : Block, Timer.aux2 ≠ .aux1 ∧ pinBit driven.dir (pin .aux2 .a) = true ∧
      pinBit driven.dir (pin .aux1 .a) = true ∧ b1 = driven.perform (.saveCom (pin .aux2 .a)) ∧
      b2 = (Block.ticks 3 b1).perform (.static (pin .aux2 .a) false) ∧
      b3 = (Block.ticks 0 b2).perform (.static (pin .aux1 .a) false) ∧
      b4 = (Block.ticks 256 b3).perform (.setLvl (pin .aux1 .a) true) ∧
      b5 = (Block.ticks 1 b4).perform (.restoreCom (pin .aux2 .a)) ∧
      driven.com .aux1 .a ≠ 2#2 ∧ driven.com .aux1 .a ≠ 3#2 :=
  ⟨_, _, _, _, _, by decide, by decide, by decide, rfl, rfl, rfl, rfl, rfl, by decide, by decide⟩

/-- A block on which WRITE CH_0A, #0x0100 has been done in mode FOUR: R335 gives COM[AUX1][A] = INV and OCR[AUX1][A] = 0. -/
def afterWrite : Block :=
  { driven with aux1 := { driven.aux1 with coma := 3#2 }, aux2 := { driven.aux2 with coma := 2#2 } }

/-- R322 gives WRITE CH_0A, #0x0001 (h = 0) these first five micro-operations; after them COM[AUX1][A] is still INV, CNT is
0 and OUT[0] is 0 (R187, R188), and the tick that takes CNT to 1 (R183) makes it 1: log 15. -/
theorem test_tick_moves_connected_low_pin :
    (uprog (.write .ch0A 0x0001#16) .four).take 5 =
        [.setDir 4, .setDir 0, .static 4 false, .saveCom 4, .static 4 false] ∧
      (afterWrite.performAll ((uprog (.write .ch0A 0x0001#16) .four).take 5)).out 0 = false ∧
      (afterWrite.performAll ((uprog (.write .ch0A 0x0001#16) .four).take 5)).tick.out 0 = true := by decide

theorem witness_TickAdvances_running :
    (stateOf synced [.tick]).sched = [.tick] ∧ synced.halt = false ∧ synced.psrst = false ∧
      synced.cs .aux1 = 1#3 ∧ synced.cs .aux2 = 2#3 := by decide

theorem witness_TickAdvances_stopped :
    Block.reset.halt = false ∧ (Block.reset.cs .pri ≠ 1#3 ∧ Block.reset.cs .pri ≠ 2#3) := by decide

theorem witness_TickAdvances_prescalerReset :
    ({ synced with psrst := true } : Block).halt = false ∧ ({ synced with psrst := true } : Block).psrst = true ∧
      ({ synced with psrst := true } : Block).cs .aux2 = 2#3 := by decide

theorem witness_TickAdvances_halted : ({ synced with halt := true } : Block).halt = true := by decide

theorem witness_MicroOperationsDoNotReadCounters : MicroOp.initFinish ≠ .syncClear := by decide

/-- The wave clauses at the comparison's boundary, CNT = OCR. -/
theorem witness_PinsShowWaveOrStaticLevel_waves :
    (Block.reset.setCom .aux1 .b comNoninv).com .aux1 .b = 2#2 ∧
    (Block.reset.setCom .pri .a comInv).com .pri .a = 3#2 ∧
    Block.reset.cnt .aux1 = Block.reset.ocr .aux1 .b ∧ Block.reset.cnt .pri = Block.reset.ocr .pri .a := by decide

theorem witness_PinsShowWaveOrStaticLevel :
    pinBit Block.reset.dir (pin .pri .a) = false ∧
    (pinBit (Block.reset.setDir (pin .pri .a)).dir (pin .pri .a) = true ∧
      (Block.reset.setDir (pin .pri .a)).com .pri .a ≠ 2#2 ∧ (Block.reset.setDir (pin .pri .a)).com .pri .a ≠ 3#2) ∧
    (pinBit ((Block.reset.setDir (pin .pri .a)).setCom .pri .a comNoninv).dir (pin .pri .a) = true ∧
      ((Block.reset.setDir (pin .pri .a)).setCom .pri .a comNoninv).com .pri .a = 2#2) := by decide

theorem witness_DutyOfOneSubChannel :
    255 < 2 ^ 8 ∧ (({ TimerRegs.reset 8 with coma := 2#2, comb := 3#2 } : TimerRegs 8).ocr .a).toNat ≤ 255 ∧
      ({ TimerRegs.reset 8 with coma := 2#2, comb := 3#2 } : TimerRegs 8).com .a = 2#2 ∧
      ({ TimerRegs.reset 8 with coma := 2#2, comb := 3#2 } : TimerRegs 8).com .b = 3#2 := by decide

theorem witness_HostReadReturnsTheRegister :
    (stateOf synced [.host (.read .word 0x2C#8)]).sched = [.host (.read .word 0x2C#8)] ∧
      (0x2C#8 : Offset).toNat % 4 = 0 ∧ regAt 0x2C#8 = some (.cnt .aux1) := by decide

theorem witness_HostReadReturnsTheRegister_unmapped : (0x30#8 : Offset).toNat % 4 = 0 ∧ regAt 0x30#8 = none := by decide

theorem witness_HostReadsAreIdempotent :
    step (stateOf synced [.host (.read .word 0x04#8), .host (.read .word 0x04#8)]) =
        .next { stateOf synced [.host (.read .word 0x04#8)] with rdata := 0x22#32 } ∧
      step { stateOf synced [.host (.read .word 0x04#8)] with rdata := 0x22#32 } =
        .next { stateOf synced [] with rdata := 0x22#32 } := ⟨by rfl, by rfl⟩

theorem witness_HostCannotWriteRegistersDirectly :
    (stateOf synced [.host (.write .word 0x24#8 7#32)]).sched = [.host (.write .word 0x24#8 7#32)] ∧
      (0x24#8 : Offset).toNat % 4 = 0 ∧ (0x24#8 : Offset) ≠ 0x00#8 := by decide

theorem witness_OnlyUnadmittedAccessesAreRefused :
    (stateOf synced [.host (.read .byte 0x04#8)]).sched = [.host (.read .byte 0x04#8)] := by rfl

theorem witness_ResetGivesEveryRegisterItsResetValue : (stateOf synced [.reset]).sched = [.reset] := by rfl

theorem midway_sequencerOk : (midway (.write .ch0A 0x0100#16) 2#4).sequencerOk :=
  ⟨.write .ch0A 0x0100#16, by decide, by decide, by decide⟩

theorem witness_EveryStepKeepsTheSequencerInvariant :
    (stateOf (midway (.write .ch0A 0x0100#16) 2#4) [.sequencer]).block.sequencerOk ∧
      isNext (step (stateOf (midway (.write .ch0A 0x0100#16) 2#4) [.sequencer])) = true :=
  ⟨midway_sequencerOk, by decide⟩

theorem witness_NoFaultWhileTheSequencerInvariantHolds :
    (stateOf (midway (.write .ch0A 0x0100#16) 2#4) [.sequencer]).block.sequencerOk := midway_sequencerOk

theorem synced_sequencerOk : synced.sequencerOk := ⟨.initFour, by decide, by decide, by decide⟩

theorem synced_bootInvariant : synced.bootInvariant := by
  refine ⟨synced_sequencerOk, ?_⟩
  show synced.afterInit
  exact ⟨rfl, rfl, rfl, fun i h => absurd h.1 (by decide), synced_timersSynced⟩

theorem witness_EveryStepKeepsTheBootInvariant :
    (stateOf synced [.tick]).block.bootInvariant ∧
      step (stateOf synced [.tick]) = .next (stateOf synced.tick []) :=
  ⟨synced_bootInvariant, by rfl⟩

theorem witness_EveryStepKeepsTheFieldsLegal :
    (stateOf synced [.tick]).block.fieldsLegal ∧ isNext (step (stateOf synced [.tick])) = true := by
  refine ⟨?_, by decide⟩
  show synced.fieldsLegal
  unfold Block.fieldsLegal auxLegal priLegal comLegal
  decide

theorem witness_FaultSetIsKeptAndOnlyGrows :
    (stateOf (synced.raise .reinit 1#32) [.tick]).sched = [.tick] ∧
      isNext (step (stateOf (synced.raise .reinit 1#32) [.tick])) = true ∧ Turn.tick ≠ .reset ∧
      { code := .reinit, info := 1#32 } ∈ (synced.raise .reinit 1#32).faults := by decide

theorem witness_FaultSetIsKept_sorted : ((synced.raise .reinit 1#32).raise .cmdBusy 5#32).faultsSorted := by
  unfold Block.faultsSorted
  decide

theorem witness_ModeIsSetOnceBetweenResets :
    (stateOf synced [.tick]).sched = [.tick] ∧ Turn.tick ≠ .reset ∧ isNext (step (stateOf synced [.tick])) = true ∧
      synced.bootInvariant ∧ synced.mode ≠ .unset ∧ synced.initDone = true :=
  ⟨rfl, by decide, by decide, synced_bootInvariant, by decide, rfl⟩

/-- ISHIGH before INIT, at its one micro-operation. -/
theorem witness_NoPinIsDrivenBeforeInitCompletes :
    ({ midway (.ishighPri .low) 0#4 with mode := .unset, initDone := false } : Block).bootInvariant ∧
      ({ midway (.ishighPri .low) 0#4 with mode := .unset, initDone := false } : Block).initDone = false := by
  refine ⟨⟨⟨.ishighPri .low, by decide, by decide, by decide⟩, ?_⟩, rfl⟩
  refine ⟨rfl, rfl, rfl, rfl, rfl, rfl, rfl, rfl, rfl, fun _ _ _ => rfl, ?_⟩
  rintro ch code ⟨_, h⟩
  revert h
  have : decode (encode (.ishighPri .low)) = .command (.ishighPri .low) := by decide
  rintro h
  cases this.symm.trans h

theorem witness_EndStateDoesNotDependOnTheSchedule :
    (stateOf (midway (.write .ch0A 0x0100#16) 2#4) []).block.sequencerOk ∧
      [Turn.tick, .sequencer, .host (.read .word 0x04#8), .tick, .sequencer].all Turn.quiet = true :=
  ⟨midway_sequencerOk, by decide⟩

theorem witness_EveryAcceptedCommandCompletes :
    (stateOf (midway (.write .ch0A 0x0100#16) 2#4) []).block.sequencerOk ∧
      (midway (.write .ch0A 0x0100#16) 2#4).running (.write .ch0A 0x0100#16) ∧
      (cmdWrite 7#32 :: List.replicate 4 .sequencer).all Turn.harmless = true ∧
      (uprog (.write .ch0A 0x0100#16) .four).length - (midway (.write .ch0A 0x0100#16) 2#4).upc.toNat ≤
        (cmdWrite 7#32 :: List.replicate 4 Turn.sequencer).countP (· == .sequencer) :=
  ⟨midway_sequencerOk, ⟨by decide, by decide⟩, by decide, by decide⟩

theorem witness_FairSchedulesCompleteEveryCommand :
    weaklyFair (fun n => if n % 2 = 0 then .sequencer else .tick) (stateOf (midway (.write .ch0A 0x0100#16) 2#4) []) ∧
      (∀ n, (if n % 2 = 0 then Turn.sequencer else Turn.tick).harmless = true) ∧
      (stateOf (midway (.write .ch0A 0x0100#16) 2#4) []).block.sequencerOk ∧
      (stateOf (midway (.write .ch0A 0x0100#16) 2#4) []).block.busy = true := by
  refine ⟨fun n _ => ⟨2 * n, by omega, by simp⟩, fun n => ?_, midway_sequencerOk, rfl⟩
  split <;> rfl

end Sys2Proof.Machine.Tests
end

section
/-! PROOFS. Which steps the machine refuses (R102, R107): no command's transition and no agent's turn but an access of a
form the bus interface does not take. -/

namespace Sys2Proof.Machine

/-! ## The admitted access form -/

/-- R102's two checks, in its own words. -/
theorem wellFormed_iff (x : Access) : x.wellFormed = true ↔ x.size = .word ∧ x.off.toNat % 4 = 0 := by
  simp [Access.wellFormed, Access.wordSized, Access.aligned]

/-- An access of another form carries no command word, so a CMD write of such a form issues nothing. -/
theorem commandWord_of_not_wellFormed {x : Access} (h : ¬ x.wellFormed = true) : commandWord x = none := by
  cases hw : commandWord x with
  | none => rfl
  | some w =>
    have hx : x = .write .word 0x00#8 w := commandWord_some hw
    subst hx
    exact absurd rfl h

/-! ## What answers a refusal -/

/-- A sequencer step that cannot go on faults; it is not refused. -/
theorem sequencerStep_ne_refused (p : List MicroOp) (s : State) (r : Refusal) : sequencerStep p s ≠ .refused r := by
  unfold sequencerStep
  split
  · split <;> exact nofun
  · exact nofun

theorem transition_ne_refused (w : Word) (c : Option FaultCode) (p : List MicroOp) (s : State) (r : Refusal) :
    transition w c p s ≠ .refused r := by
  unfold transition
  split
  · exact sequencerStep_ne_refused p s r
  · exact nofun

/-- No command's transition is refused: every arm has its meaning. -/
theorem exec_ne_refused (i : Instr) (s : State) (r : Refusal) : exec i s ≠ .refused r := by
  rw [exec_eq_transition]
  exact transition_ne_refused _ _ _ s r

theorem hostTurn_refused_iff (x : Access) (s : State) (r : Refusal) :
    hostTurn x s = .refused r ↔ r = .unadmittedAccess ∧ ¬ x.wellFormed = true := by
  unfold hostTurn
  split
  · next hx =>
    refine iff_of_false ?_ fun h => h.2 hx
    cases x with
    | read size off => exact nofun
    | write size off v => dsimp only; split <;> exact nofun
  · next hx => simp [hx, eq_comm]

/-- Of the turns that run no command only a host access can be refused. -/
theorem agentTurn_refused_iff {s : State} {turn : Turn} {rest : List Turn} (hs : s.sched = turn :: rest) (r : Refusal) :
    agentTurn s = .refused r ↔ r = .unadmittedAccess ∧ ∃ x : Access, turn = .host x ∧ ¬ x.wellFormed = true := by
  simp only [agentTurn, hs]
  cases turn with
  | host x => simp [hostTurn_refused_iff]
  | sequencer =>
    have hne : idleSequencer s ≠ .refused r := by unfold idleSequencer; split <;> exact nofun
    simp [hne]
  | tick => simp
  | reset => simp

/-- A turn that runs a command is not an access of a form that is not admitted. -/
theorem wellFormed_of_fetch {s : State} {x : Access} {rest : List Turn} {i : Instr} (hs : s.sched = .host x :: rest)
    (hf : fetch s = some i) : x.wellFormed = true := by
  by_contra hx
  simp [fetch, hs, commandWord_of_not_wellFormed hx] at hf

/-- Settles O46: a turn that runs a command is neither refused nor ill-formed, and any other turn is the agent's own. -/
theorem onlyUnadmittedAccessesAreRefused : Obligations.OnlyUnadmittedAccessesAreRefused := by
  intro s turn rest r hs
  simp only [← wellFormed_iff]
  rw [step_of_cons hs]
  cases hf : fetch s with
  | none => exact agentTurn_refused_iff hs r
  | some i =>
    refine iff_of_false (exec_ne_refused i s r) ?_
    rintro ⟨_, x, rfl, hx⟩
    exact hx (wellFormed_of_fetch hs hf)

end Sys2Proof.Machine
end

section
/-! PROOFS. The issue of a command (R162): which of R381's checks refuses a CMD write, and what acceptance writes. -/

namespace Sys2Proof

/-! ## A command has one word

Acceptance stores the word of the command, so CMDREG is the word written only because no other word decodes to it. -/

theorem Channel.bits_ofBits (sel : BitVec 2) : (Channel.ofBits sel).bits = sel := by
  revert sel; decide

theorem Half.bit_ofBit (h : BitVec 1) : (Half.ofBit h).bit = h := by
  revert h; decide

/-- The fields of R141 side by side are the whole word, so with RSV = 0 packing them gives the word back. -/
theorem packC32_eq_of_fields {w : Word} {op : BitVec 4} {half : BitVec 1} {sel : BitVec 2} {code : Code}
    (hop : fieldOp w = op) (hrsv : fieldRsv w = 0) (hhalf : fieldHalf w = half) (hsel : fieldSel w = sel)
    (hcode : fieldCode w = code) : packC32 op half sel code = w := by
  have hwhole : fieldOp w ++ fieldRsv w ++ fieldHalf w ++ fieldSel w ++ fieldCode w = w := by
    apply BitVec.eq_of_getLsbD_eq
    intro k hk
    simp only [fieldOp, fieldRsv, fieldHalf, fieldSel, fieldCode, BitVec.getLsbD_append, BitVec.getLsbD_extractLsb']
    grind
  rw [hop, hrsv, hhalf, hsel, hcode] at hwhole
  exact hwhole

/-- SEL of an INIT is the one its mode is packed with. -/
theorem encode_of_decodeInit {sel : BitVec 2} {i : Instr} (h : decodeInit sel = .command i) :
    encode i = packC32 1 0 sel 0 := by
  unfold decodeInit at h
  split at h
  · next hsel => cases h; rw [BitVec.eq_of_toNat_eq (y := 1#2) hsel]; rfl
  · next hsel => cases h; rw [BitVec.eq_of_toNat_eq (y := 2#2) hsel]; rfl
  · next hsel => cases h; rw [BitVec.eq_of_toNat_eq (y := 3#2) hsel]; rfl
  · cases h

/-- SEL of an ISHIGH is the id of its timer. -/
theorem encode_of_decodeIshigh {sel : BitVec 2} {half : Half} {i : Instr} (h : decodeIshigh sel half = .command i) :
    encode i = packC32 4 half.bit sel 0 := by
  unfold decodeIshigh at h
  split at h
  · next hsel => cases h; rw [BitVec.eq_of_toNat_eq (y := 0#2) hsel]; rfl
  · next hsel => cases h; rw [BitVec.eq_of_toNat_eq (y := 1#2) hsel]; rfl
  · next hsel => cases h; rw [BitVec.eq_of_toNat_eq (y := 2#2) hsel]; rfl
  · cases h

/-- The decoder drops no bit: a word that decodes to a command is that command's encoding. -/
theorem encode_of_decode {w : Word} {i : Instr} (h : decode w = .command i) : encode i = w := by
  unfold decode at h
  split at h
  case h_1 hop =>
    split at h
    · next hz =>
      obtain ⟨hrsv, hhalf, hsel, hcode⟩ := hz
      cases h
      exact packC32_eq_of_fields (BitVec.eq_of_toNat_eq hop) hrsv hhalf hsel hcode
    · cases h
  case h_2 hop =>
    split at h
    · next hz =>
      obtain ⟨hrsv, hhalf, hcode⟩ := hz
      rw [encode_of_decodeInit h]
      exact packC32_eq_of_fields (BitVec.eq_of_toNat_eq hop) hrsv hhalf rfl hcode
    · cases h
  case h_3 hop =>
    split at h
    · next hz =>
      obtain ⟨hrsv, hhalf⟩ := hz
      cases h
      exact packC32_eq_of_fields (BitVec.eq_of_toNat_eq hop) hrsv hhalf (Channel.bits_ofBits _).symm rfl
    · cases h
  case h_4 hop =>
    split at h
    · next hz =>
      obtain ⟨hrsv, hhalf, hsel⟩ := hz
      cases h
      exact packC32_eq_of_fields (BitVec.eq_of_toNat_eq hop) hrsv hhalf hsel rfl
    · cases h
  case h_5 hop =>
    split at h
    · next hz =>
      obtain ⟨hrsv, hcode⟩ := hz
      rw [encode_of_decodeIshigh h]
      exact packC32_eq_of_fields (BitVec.eq_of_toNat_eq hop) hrsv (Half.bit_ofBit _).symm rfl hcode
    · cases h
  case h_6 => cases h

end Sys2Proof

namespace Sys2Proof.Machine

/-! ## The acceptance check, case by case (R381) -/

theorem commandCheck_init {i : Instr} {b : Block} (hi : i.isInit = true) (hm : b.mode ≠ .unset) :
    commandCheck i b = some .reinit := by
  cases i with
  | initTwo | initFour | initRev => simp [commandCheck, hm]
  | nop | write _ _ | encode _ | ishighAux1 _ | ishighPri _ | ishighAux2 _ => simp [Instr.isInit] at hi

theorem commandCheck_write {b : Block} (ch : Channel) (code : Code) (hd : b.initDone = false) :
    commandCheck (.write ch code) b = some .writeBeforeInit := by
  simp [commandCheck, hd]

/-- INIT and WRITE are the only commands with a check of their own. -/
theorem commandCheck_none {i : Instr} {b : Block} (hinit : i.isInit = true → b.mode = .unset)
    (hwrite : ∀ ch code, i = .write ch code → b.initDone = true) : commandCheck i b = none := by
  cases i with
  | initTwo | initFour | initRev => simp [commandCheck, hinit rfl]
  | write ch code => simp [commandCheck, hwrite ch code rfl]
  | nop | encode _ | ishighAux1 _ | ishighPri _ | ishighAux2 _ => rfl

theorem acceptCheck_busy {b : Block} (hb : b.busy = true) (w : Word) : acceptCheck w b = some .cmdBusy := by
  simp [acceptCheck, hb]

theorem acceptCheck_reservedOpcode {b : Block} {w : Word} (hb : b.busy = false) (hw : decode w = .reservedOpcode) :
    acceptCheck w b = some .reservedOpcode := by
  simp [acceptCheck, hb, hw]

theorem acceptCheck_reservedField {b : Block} {w : Word} (hb : b.busy = false) (hw : decode w = .reservedField) :
    acceptCheck w b = some .reservedField := by
  simp [acceptCheck, hb, hw]

theorem acceptCheck_command {b : Block} {w : Word} {i : Instr} (hb : b.busy = false) (hw : decode w = .command i) :
    acceptCheck w b = commandCheck i b := by
  simp [acceptCheck, hb, hw]

/-! ## The transition at a CMD write -/

/-- A CMD write of a command's word issues that word. -/
theorem step_cmdWrite_command {s : State} {w : Word} {rest : List Turn} {i : Instr} (hs : s.sched = cmdWrite w :: rest)
    (hw : decode w = .command i) :
    step s = .next (issue w (commandCheck i s.block) (uprog i s.block.mode) s) := by
  have hf : fetch s = some i := by simp [fetch, hs, cmdWrite, commandOf_some.mpr hw]
  rw [step_of_cons hs, hf]
  calc exec i s = transition (encode i) (commandCheck i s.block) (uprog i s.block.mode) s := exec_eq_transition i s
    _ = .next (issue (encode i) (commandCheck i s.block) (uprog i s.block.mode) s) := transition_cmdWrite hs _ _ _
    _ = .next (issue w (commandCheck i s.block) (uprog i s.block.mode) s) := by rw [encode_of_decode hw]

/-- A CMD write of any other word is the host's own turn. -/
theorem step_cmdWrite_reserved {s : State} {w : Word} {rest : List Turn} (hs : s.sched = cmdWrite w :: rest)
    (hw : ∀ i, decode w ≠ .command i) : step s = .next (issueReserved w s) := by
  have hc : commandOf w = none := Option.eq_none_iff_forall_ne_some.mpr fun i h => hw i (commandOf_some.mp h)
  have hf : fetch s = none := by simp [fetch, hs, cmdWrite, hc]
  rw [step_of_cons hs, hf]
  simp only [agentTurn, hs]
  rfl

/-- The issue of a command that the acceptance check refuses. -/
theorem issue_refused {s : State} {w : Word} {i : Instr} {code : FaultCode} (hw : decode w = .command i)
    (h : acceptCheck w s.block = some code) (p : List MicroOp) :
    issue w (commandCheck i s.block) p s = s.done (s.block.raise code w) := by
  cases hb : s.block.busy with
  | true =>
    obtain rfl : FaultCode.cmdBusy = code := Option.some.inj ((acceptCheck_busy hb w).symm.trans h)
    simp [issue, hb]
  | false =>
    rw [acceptCheck_command hb hw] at h
    simp [issue, hb, h]

/-- Where the acceptance check names a fault, the write raises it and changes no other state, whatever the word is. -/
theorem step_cmdWrite_refused {s : State} {w : Word} {rest : List Turn} {code : FaultCode}
    (hs : s.sched = cmdWrite w :: rest) (h : acceptCheck w s.block = some code) :
    step s = .next { s with sched := rest, block := s.block.raise code w } := by
  rw [← done_of_cons hs]
  by_cases hw : ∃ i, decode w = .command i
  · obtain ⟨i, hw⟩ := hw
    rw [step_cmdWrite_command hs hw, issue_refused hw h]
  · rw [step_cmdWrite_reserved hs (not_exists.mp hw)]
    simp [issueReserved, h]

/-- Where an idle block's check of the command passes, the write is accepted. -/
theorem step_cmdWrite_accepted {s : State} {w : Word} {rest : List Turn} {i : Instr} (hs : s.sched = cmdWrite w :: rest)
    (hb : s.block.busy = false) (hw : decode w = .command i) (hc : commandCheck i s.block = none) :
    step s = .next { s with sched := rest, block := s.block.accept w (uprog i s.block.mode) } := by
  rw [step_cmdWrite_command hs hw, ← done_of_cons hs]
  simp [issue, hb, hc]

/-- Settles O7: each clause names the value of R381's check, and the write is refused or accepted by it. -/
theorem commandIssueFollowsTheAcceptanceCheck : Obligations.CommandIssueFollowsTheAcceptanceCheck := by
  intro s w rest hs
  refine ⟨fun hb => step_cmdWrite_refused hs (acceptCheck_busy hb w), fun hb => ⟨?_, ?_, ?_, ?_, ?_⟩⟩
  · exact fun hw => step_cmdWrite_refused hs (acceptCheck_reservedOpcode hb hw)
  · exact fun hw => step_cmdWrite_refused hs (acceptCheck_reservedField hb hw)
  · intro i hw hi hm
    exact step_cmdWrite_refused hs ((acceptCheck_command hb hw).trans (commandCheck_init hi hm))
  · intro ch code hw hd
    exact step_cmdWrite_refused hs ((acceptCheck_command hb hw).trans (commandCheck_write ch code hd))
  · intro i hw hinit hwrite
    exact step_cmdWrite_accepted hs hb hw (commandCheck_none hinit hwrite)

end Sys2Proof.Machine
end

section
/-! PROOFS. The Duty Encoder (file 42): its outputs for every code, and what ENCODE leaves in ENCRES. -/

namespace Sys2Proof.Machine

/-! ## A command's two transitions as equations -/

/-- At a CMD write to an idle block whose check passes, a command is accepted. -/
theorem exec_cmdWrite_accepted {i : Instr} {s : State} {v : Word} {rest : List Turn} (hs : s.sched = cmdWrite v :: rest)
    (hb : s.block.busy = false) (hc : commandCheck i s.block = none) :
    exec i s = .next { s with sched := rest, block := s.block.accept (encode i) (uprog i s.block.mode) } := by
  rw [exec_eq_transition, transition_cmdWrite hs, ← done_of_cons hs]
  simp [issue, hb, hc]

/-- At the sequencer's turn with BUSY = 1, a command performs its micro-operation at UPC. -/
theorem exec_sequencer_performs {i : Instr} {s : State} {rest : List Turn} {op : MicroOp}
    (hs : s.sched = .sequencer :: rest) (hb : s.block.busy = true)
    (hop : (uprog i s.block.mode)[s.block.upc.toNat]? = some op) :
    exec i s = .next { s with
      sched := rest, block := s.block.afterOp op (uprog i s.block.mode).length } := by
  rw [exec_eq_transition, transition_sequencer hs, ← done_of_cons hs]
  simp [sequencerStep, hb, hop]

/-! ## The outputs, code by code (R250) -/

theorem encodeDuty_fullyOn :
    encodeDuty 0xFFFF#16 = { high := 0x00#8, low := 0x00#8, fullOn := true, fullOff := false } := rfl

theorem encodeDuty_fullyOff :
    encodeDuty 0x0000#16 = { high := 0x00#8, low := 0x00#8, fullOn := false, fullOff := true } := rfl

/-- The shift of R250 is the quotient by 256; the width of a byte takes the remainder. -/
theorem encodeDuty_unflagged {code : Code} (hon : code ≠ 0xFFFF#16) (hoff : code ≠ 0x0000#16) :
    encodeDuty code =
      { high := BitVec.ofNat 8 ((code.toNat + 1) / 256), low := BitVec.ofNat 8 (code.toNat + 1),
        fullOn := false, fullOff := false } := by
  simp [encodeDuty, isFullyOn, isFullyOff, hon, hoff, Nat.shiftRight_eq_div_pow]

/-- Code + 1 of an unflagged code fits 16 bits, so its quotient by 256 is a byte (R252). -/
theorem quotient_lt_of_unflagged {code : Code} (hon : code ≠ 0xFFFF#16) : (code.toNat + 1) / 256 < 256 := by
  have hne : code.toNat ≠ 65535 := fun h => hon (BitVec.eq_of_toNat_eq h)
  have hlt : code.toNat < 65536 := code.isLt
  omega

/-- Settles O20: the two flagged codes by their rows, every other by the unflagged row, whose bytes lose nothing. -/
theorem encoderFollowsItsTable : Obligations.EncoderFollowsItsTable := by
  intro code
  refine ⟨?_, ?_, ?_⟩
  · rintro rfl
    exact encodeDuty_fullyOn
  · rintro rfl
    exact encodeDuty_fullyOff
  · intro hon hoff
    have hquot := quotient_lt_of_unflagged hon
    rw [encodeDuty_unflagged hon hoff]
    exact ⟨rfl, rfl, (BitVec.toNat_ofNat _ _).trans (Nat.mod_eq_of_lt hquot), BitVec.toNat_ofNat _ _⟩

/-! ## What ENC_STORE leaves in ENCRES (R256) -/

/-- R250's three rows as one: each field of ENCRES by the code. -/
theorem opEncStore_eq (b : Block) (code : Code) :
    b.opEncStore code = { b with
      encHigh := if code = 0xFFFF#16 ∨ code = 0x0000#16 then 0#8 else BitVec.ofNat 8 ((code.toNat + 1) / 256)
      encLow := if code = 0xFFFF#16 ∨ code = 0x0000#16 then 0#8 else BitVec.ofNat 8 (code.toNat + 1)
      encFullOn := decide (code = 0xFFFF#16)
      encFullOff := decide (code = 0x0000#16) } := by
  by_cases hon : code = 0xFFFF#16
  · subst hon
    simp [Block.opEncStore, encodeDuty_fullyOn]
  · by_cases hoff : code = 0x0000#16
    · subst hoff
      simp [Block.opEncStore, encodeDuty_fullyOff]
    · simp [Block.opEncStore, encodeDuty_unflagged hon hoff, hon, hoff]

/-- ENC_STORE is the first and the last micro-operation of ENCODE, so BUSY falls with it (R163, R255). -/
theorem afterOp_encStore {b : Block} (hupc : b.upc = 0#4) (code : Code) :
    b.afterOp (.encStore code) 1 = { b.opEncStore code with upc := 1#4, busy := false } := by
  simp [Block.afterOp, busyAfterStep, hupc]

/-- Settles O18: ENCODE has no check of its own, and its micro-program is ENC_STORE alone. -/
theorem encodeStoresTheEncodedCode : Obligations.EncodeStoresTheEncodedCode := by
  rintro s code w rest rfl
  have hprog : uprog (.encode code) s.block.mode = [.encStore code] := rfl
  refine ⟨fun hs hb => ?_, fun hs hb hupc => ⟨?_, rfl⟩⟩
  · rw [exec_cmdWrite_accepted hs hb rfl, hprog]
    rfl
  · have hop : (uprog (.encode code) s.block.mode)[s.block.upc.toNat]? = some (.encStore code) := by
      simp [hprog, hupc]
    rw [exec_sequencer_performs hs hb hop, hprog, List.length_singleton, afterOp_encStore hupc, opEncStore_eq]

end Sys2Proof.Machine
end

section
/-! PROOFS. The Timer Configurator (file 43): all that CONFIG writes to the timer it names. -/

namespace Sys2Proof.Machine

/-! ## The codes an auxiliary timer gets by its role (R281) -/

theorem csOfRole_eq (r : Half) : csOfRole r = if r = .high then 2#3 else 1#3 := by
  cases r <;> rfl

theorem comOfRole_eq (r : Half) : comOfRole r = if r = .high then 2#2 else 3#2 := by
  cases r <;> rfl

/-- CONFIG of an auxiliary timer in the codes of CTRL, for either role: WGM and CS whatever the enables, COM by its enable
(R283). -/
theorem TimerRegs.config_byRole {w : Nat} (t : TimerRegs w) (r : Half) (enA enB : Bool) :
    t.config wgmFpwm8 (csOfRole r) (comOfRole r) enA enB = { t with
      wgm := 1#2
      cs := if r = .high then 2#3 else 1#3
      coma := if enA then (if r = .high then 2#2 else 3#2) else t.coma
      comb := if enB then (if r = .high then 2#2 else 3#2) else t.comb } := by
  rw [csOfRole_eq, comOfRole_eq]
  rfl

/-- Settles O22: PRI's values are constants; an auxiliary timer's are those of its role under the mode. -/
theorem configWritesTheTimerByItsRole : Obligations.ConfigWritesTheTimerByItsRole := by
  intro b enA enB
  refine ⟨rfl, ?_, ?_⟩
  · rw [perform_config, Block.opConfig, TimerRegs.config_byRole]
  · rw [perform_config, Block.opConfig, TimerRegs.config_byRole]

end Sys2Proof.Machine
end

section
/-! PROOFS. The Half-Role Resolver (file 44): what ISHIGH leaves in QRES. -/

namespace Sys2Proof.Machine

/-! ## A command of one micro-operation -/

/-- Accepted, such a command is in progress at its only micro-operation (R162). -/
theorem exec_cmdWrite_singleOp {i : Instr} {s : State} {v : Word} {rest : List Turn} {op : MicroOp}
    (hs : s.sched = cmdWrite v :: rest) (hb : s.block.busy = false) (hc : commandCheck i s.block = none)
    (hprog : uprog i s.block.mode = [op]) :
    exec i s =
      .next { s with sched := rest, block := { s.block with cmdreg := encode i, upc := 0#4, busy := true } } := by
  rw [exec_cmdWrite_accepted hs hb hc, hprog]
  rfl

/-- The micro-operation at UPC = 0 is also the last one, so BUSY falls with it (R163). -/
theorem exec_sequencer_singleOp {i : Instr} {s : State} {rest : List Turn} {op : MicroOp}
    (hs : s.sched = .sequencer :: rest) (hb : s.block.busy = true) (hupc : s.block.upc = 0#4)
    (hprog : uprog i s.block.mode = [op]) :
    exec i s = .next { s with sched := rest, block := { s.block.perform op with upc := 1#4, busy := false } } := by
  have hop : (uprog i s.block.mode)[s.block.upc.toNat]? = some op := by simp [hprog, hupc]
  have hlast : s.block.afterOp op 1 = { s.block.perform op with upc := 1#4, busy := false } := by
    simp [Block.afterOp, busyAfterStep, hupc]
  rw [exec_sequencer_performs hs hb hop, hprog, List.length_singleton, hlast]

/-! ## The formula and the three commands -/

/-- R300's XOR of three bits, each as the proposition it stands for. -/
theorem isHighHalf_eq_xor (m : Mode) (t : Timer) (half : Half) :
    isHighHalf m t half = (decide (t = .aux1)).xor ((decide (m = .rev)).xor (decide (half = .high))) :=
  Bool.xor_assoc _ _ _

/-- Settles O26: each timer's row has no check of its own and the one QHI_STORE of that timer for its micro-program, which
stores the formula. -/
theorem ishighStoresTheFormulasValue : Obligations.IshighStoresTheFormulasValue := by
  intro s half rest i t hi
  obtain ⟨hcheck, hprog⟩ : commandCheck i s.block = none ∧ uprog i s.block.mode = [.qhiStore t half] := by
    rcases hi with ⟨rfl, rfl⟩ | ⟨rfl, rfl⟩ | ⟨rfl, rfl⟩
    · exact ⟨rfl, rfl⟩
    · exact ⟨rfl, rfl⟩
    · exact ⟨rfl, rfl⟩
  refine ⟨fun hs hb => exec_cmdWrite_singleOp hs hb hcheck hprog, fun hs hb hupc => ⟨?_, rfl⟩⟩
  rw [exec_sequencer_singleOp hs hb hupc hprog, perform_qhiStore, isHighHalf_eq_xor]

end Sys2Proof.Machine
end

section
/-! PROOFS. Reset (file 70): the turn that takes it, and what every register reads after it. -/

namespace Sys2Proof.Machine

/-! ## The turn -/

/-- Reset runs no command: it is an agent's own turn, enabled whatever is in progress (R420). -/
theorem step_reset {s : State} {rest : List Turn} (hs : s.sched = .reset :: rest) :
    step s = .next { s with sched := rest, block := Block.reset } := by
  have hf : fetch s = none := by simp [fetch, hs]
  have ha : agentTurn s = .next (resetTurn s) := by simp [agentTurn, hs]
  rw [step_of_cons hs, hf, ← done_of_cons hs]
  exact ha

/-! ## What is read after it -/

/-- An undriven pin has neither an output enable nor a level (R188). -/
theorem out_of_not_outputEnable {b : Block} {p : Pin} (h : b.outputEnable p = false) : b.out p = false := by
  unfold Block.outputEnable at h
  simp [Block.out, h]

/-- With every pin an input PINOUT reads 0, whatever the timers and LVL hold (R57, R188). -/
theorem pinoutWord_of_dir_zero {b : Block} (h : b.dir = 0#6) : b.pinoutWord = 0#32 := by
  have hoe : ∀ p, b.outputEnable p = false := fun p => by simp [Block.outputEnable, pinBit, h]
  have hout : ∀ p, b.out p = false := fun p => out_of_not_outputEnable (hoe p)
  simp only [Block.pinoutWord, hoe, hout]
  rfl

/-- The registers of each timer after reset, at the widths the block reads them (R58, R63). -/
theorem timerFields_reset (t : Timer) :
    Block.reset.ctrl t = 0#12 ∧ Block.reset.cnt t = 0#16 ∧ Block.reset.psc t = 0#8 ∧
      Block.reset.ocr t .a = 0#16 ∧ Block.reset.ocr t .b = 0#16 := by
  cases t with
  | aux1 => exact ⟨rfl, rfl, rfl, rfl, rfl⟩
  | pri => exact ⟨rfl, rfl, rfl, rfl, rfl⟩
  | aux2 => exact ⟨rfl, rfl, rfl, rfl, rfl⟩

/-- PINOUT, which no register holds, reads 0 because no pin is driven; every other register reads its stored zeros. -/
theorem readReg_reset (r : Reg) : Block.reset.readReg r = 0#32 := by
  cases r with
  | cmd | status | encres | qres | syncctl | top | pinctl => rfl
  | pinout => exact pinoutWord_of_dir_zero rfl
  | ctrl t =>
    obtain ⟨hctrl, -, -, -, -⟩ := timerFields_reset t
    simp [Block.readReg, hctrl]
  | cnt t =>
    obtain ⟨-, hcnt, -, -, -⟩ := timerFields_reset t
    simp [Block.readReg, hcnt]
  | psc t =>
    obtain ⟨-, -, hpsc, -, -⟩ := timerFields_reset t
    simp [Block.readReg, hpsc]
  | ocr t sub =>
    obtain ⟨-, -, -, ha, hb⟩ := timerFields_reset t
    cases sub with
    | a => simp [Block.readReg, ha]
    | b => simp [Block.readReg, hb]

/-- Settles O49: the turn leaves `Block.reset`, whose fields are R63's table, and the reads follow. -/
theorem resetGivesEveryRegisterItsResetValue : Obligations.ResetGivesEveryRegisterItsResetValue := by
  intro s rest hs
  exact ⟨{ s with sched := rest, block := Block.reset }, step_reset hs, rfl, rfl,
    rfl, rfl, rfl, rfl, rfl, rfl, rfl, rfl, rfl, rfl, rfl, rfl, timerFields_reset, readReg_reset⟩

end Sys2Proof.Machine
end

section
/-! PROOFS. Command words (file 30): the round trip of encoder and decoder, the rows of the opcode table as masks, and the
reserved words. -/

namespace Sys2Proof

/-! ## The fields of a packed word -/

theorem fieldOp_packC32 (op : BitVec 4) (half : BitVec 1) (sel : BitVec 2) (code : Code) :
    fieldOp (packC32 op half sel code) = op := by
  apply BitVec.eq_of_getLsbD_eq
  intro k hk
  simp only [fieldOp, packC32, BitVec.getLsbD_append, BitVec.getLsbD_extractLsb']
  grind

theorem fieldRsv_packC32 (op : BitVec 4) (half : BitVec 1) (sel : BitVec 2) (code : Code) :
    fieldRsv (packC32 op half sel code) = 0 := by
  apply BitVec.eq_of_getLsbD_eq
  intro k hk
  simp only [fieldRsv, packC32, BitVec.getLsbD_append, BitVec.getLsbD_extractLsb']
  grind

theorem fieldHalf_packC32 (op : BitVec 4) (half : BitVec 1) (sel : BitVec 2) (code : Code) :
    fieldHalf (packC32 op half sel code) = half := by
  apply BitVec.eq_of_getLsbD_eq
  intro k hk
  simp only [fieldHalf, packC32, BitVec.getLsbD_append, BitVec.getLsbD_extractLsb']
  grind

theorem fieldSel_packC32 (op : BitVec 4) (half : BitVec 1) (sel : BitVec 2) (code : Code) :
    fieldSel (packC32 op half sel code) = sel := by
  apply BitVec.eq_of_getLsbD_eq
  intro k hk
  simp only [fieldSel, packC32, BitVec.getLsbD_append, BitVec.getLsbD_extractLsb']
  grind

theorem fieldCode_packC32 (op : BitVec 4) (half : BitVec 1) (sel : BitVec 2) (code : Code) :
    fieldCode (packC32 op half sel code) = code := by
  apply BitVec.eq_of_getLsbD_eq
  intro k hk
  simp only [fieldCode, packC32, BitVec.getLsbD_append, BitVec.getLsbD_extractLsb']
  grind

theorem Channel.ofBits_bits (ch : Channel) : Channel.ofBits ch.bits = ch := by cases ch <;> rfl

theorem Half.ofBit_bit (half : Half) : Half.ofBit half.bit = half := by cases half <;> rfl

/-- The decoder reads each field of a packed word back, so every command comes back from its word (R148, R149). -/
theorem decode_encode (i : Instr) : decode (encode i) = .command i := by
  cases i with
  | nop | initTwo | initFour | initRev => rfl
  | write ch code =>
    simp [decode, encode, fieldOp_packC32, fieldRsv_packC32, fieldHalf_packC32, fieldSel_packC32, fieldCode_packC32,
      Channel.ofBits_bits]
  | encode code =>
    simp [decode, Sys2Proof.encode, fieldOp_packC32, fieldRsv_packC32, fieldHalf_packC32, fieldSel_packC32,
      fieldCode_packC32]
  | ishighAux1 half | ishighPri half | ishighAux2 half => cases half <;> rfl

/-- Settles O1: by the fields of a packed word. -/
theorem decodeReadsBackEveryEncodedCommand : Obligations.DecodeReadsBackEveryEncodedCommand :=
  fun i _ => decode_encode i

/-- Settles O2: the decoder drops no bit. -/
theorem everyCommandHasOneWord : Obligations.EveryCommandHasOneWord :=
  fun _ _ h => encode_of_decode h

/-- Settles O5: each word by evaluation. -/
theorem workedEncodingsDecode : Obligations.WorkedEncodingsDecode :=
  ⟨rfl, rfl, rfl, rfl, rfl, rfl, rfl, rfl, rfl, rfl, rfl, rfl, rfl, rfl⟩

/-- A word decodes to a command exactly when it is the command's encoding. -/
theorem decode_eq_command_iff {w : Word} {i : Instr} : decode w = .command i ↔ w = encode i :=
  ⟨fun h => (encode_of_decode h).symm, fun h => h ▸ decode_encode i⟩

/-! ## Masked words, field by field -/

/-- The five fields of R141 side by side are the word. -/
theorem fields_append (w : Word) :
    fieldOp w ++ fieldRsv w ++ fieldHalf w ++ fieldSel w ++ fieldCode w = w := by
  apply BitVec.eq_of_getLsbD_eq
  intro k hk
  simp only [fieldOp, fieldRsv, fieldHalf, fieldSel, fieldCode, BitVec.getLsbD_append, BitVec.getLsbD_extractLsb']
  grind

theorem eq_iff_fields (v w : Word) : v = w ↔ fieldOp v = fieldOp w ∧ fieldRsv v = fieldRsv w ∧
    fieldHalf v = fieldHalf w ∧ fieldSel v = fieldSel w ∧ fieldCode v = fieldCode w := by
  constructor
  · rintro rfl
    exact ⟨rfl, rfl, rfl, rfl, rfl⟩
  · rintro ⟨hop, hrsv, hhalf, hsel, hcode⟩
    rw [← fields_append v, ← fields_append w, hop, hrsv, hhalf, hsel, hcode]

theorem eq_packC32_iff {w : Word} {op : BitVec 4} {half : BitVec 1} {sel : BitVec 2} {code : Code} :
    w = packC32 op half sel code ↔
      fieldOp w = op ∧ fieldRsv w = 0 ∧ fieldHalf w = half ∧ fieldSel w = sel ∧ fieldCode w = code := by
  rw [eq_iff_fields, fieldOp_packC32, fieldRsv_packC32, fieldHalf_packC32, fieldSel_packC32, fieldCode_packC32]

/-- A mask of R142 keeps a field whole or clears it: a field under a mask of ones is the field. -/
theorem field_and_ones : (∀ v : BitVec 4, v &&& 15#4 = v) ∧ (∀ v : BitVec 9, v &&& 511#9 = v) ∧
    (∀ v : BitVec 1, v &&& 1#1 = v) ∧ (∀ v : BitVec 2, v &&& 3#2 = v) ∧ ∀ v : Code, v &&& 65535#16 = v :=
  ⟨fun _ => BitVec.and_allOnes, fun _ => BitVec.and_allOnes, fun _ => BitVec.and_allOnes,
    fun _ => BitVec.and_allOnes, fun _ => BitVec.and_allOnes⟩

/-! ## The rows of the opcode table (R142, R143) -/

theorem row_write_iff (w : Word) :
    w &&& 0xFFFC0000#32 = 0x20000000#32 ↔ fieldOp w = 2 ∧ fieldRsv w = 0 ∧ fieldHalf w = 0 := by
  simp [eq_iff_fields, BitVec.extractLsb'_and, field_and_ones, fieldOp, fieldRsv, fieldHalf, fieldSel, fieldCode]

theorem row_encode_iff (w : Word) :
    w &&& 0xFFFF0000#32 = 0x30000000#32 ↔ fieldOp w = 3 ∧ fieldRsv w = 0 ∧ fieldHalf w = 0 ∧ fieldSel w = 0 := by
  simp [eq_iff_fields, BitVec.extractLsb'_and, field_and_ones, fieldOp, fieldRsv, fieldHalf, fieldSel, fieldCode]

/-- The three ISHIGH rows: `v` is the row's word with its SEL. -/
theorem row_ishigh_iff (w v : Word) (sel : BitVec 2) (hv : v = packC32 4 0 sel 0) :
    w &&& 0xFFFBFFFF#32 = v ↔ fieldOp w = 4 ∧ fieldRsv w = 0 ∧ fieldSel w = sel ∧ fieldCode w = 0 := by
  subst hv
  rw [eq_packC32_iff]
  simp [BitVec.extractLsb'_and, field_and_ones, fieldOp, fieldRsv, fieldHalf, fieldSel, fieldCode]

/-- A row of ISHIGH decodes to its timer with the half that HALF names. -/
theorem ishigh_row_decodes {w v : Word} {sel : BitVec 2} {i : Half → Instr} (hv : v = packC32 4 0 sel 0)
    (hi : ∀ half, encode (i half) = packC32 4 half.bit sel 0) :
    w &&& 0xFFFBFFFF#32 = v ↔ ∃ half : Half, half.bit = fieldHalf w ∧ decode w = .command (i half) := by
  simp only [row_ishigh_iff w v sel hv, decode_eq_command_iff, hi, eq_packC32_iff]
  constructor
  · rintro ⟨hop, hrsv, hsel, hcode⟩
    exact ⟨Half.ofBit (fieldHalf w), Half.bit_ofBit _, hop, hrsv, (Half.bit_ofBit _).symm, hsel, hcode⟩
  · rintro ⟨half, -, hop, hrsv, -, hsel, hcode⟩
    exact ⟨hop, hrsv, hsel, hcode⟩

theorem write_row_decodes (w : Word) : w &&& 0xFFFC0000#32 = 0x20000000#32 ↔
    ∃ ch : Channel, ch.bits = fieldSel w ∧ decode w = .command (.write ch (fieldCode w)) := by
  simp only [row_write_iff, decode_eq_command_iff, encode, eq_packC32_iff]
  constructor
  · rintro ⟨hop, hrsv, hhalf⟩
    exact ⟨Channel.ofBits (fieldSel w), Channel.bits_ofBits _, hop, hrsv, hhalf, (Channel.bits_ofBits _).symm, trivial⟩
  · rintro ⟨ch, -, hop, hrsv, hhalf, -⟩
    exact ⟨hop, hrsv, hhalf⟩

theorem encode_row_decodes (w : Word) :
    w &&& 0xFFFF0000#32 = 0x30000000#32 ↔ decode w = .command (.encode (fieldCode w)) := by
  simp [row_encode_iff, decode_eq_command_iff, encode, eq_packC32_iff]

/-- A row without operands holds its one word. -/
theorem operandless_row_decodes {w v : Word} {i : Instr} (hv : encode i = v) :
    w &&& 0xFFFFFFFF#32 = v ↔ decode w = .command i := by
  rw [show w &&& 0xFFFFFFFF#32 = w from BitVec.and_allOnes, decode_eq_command_iff, hv]

/-- Settles O3: each row's mask and value in the fields of R141, against the fields of the command's encoding. -/
theorem wordsOfATableRowDecodeToItsCommand : Obligations.WordsOfATableRowDecodeToItsCommand := fun w =>
  ⟨operandless_row_decodes rfl, operandless_row_decodes rfl, operandless_row_decodes rfl, operandless_row_decodes rfl,
    write_row_decodes w, encode_row_decodes w, ishigh_row_decodes rfl fun _ => rfl,
    ishigh_row_decodes rfl fun _ => rfl, ishigh_row_decodes rfl fun _ => rfl⟩

/-! ## Reserved words (R145, R146) -/

theorem decodeInit_reserved_iff (sel : BitVec 2) :
    decodeInit sel ≠ .reservedOpcode ∧ (decodeInit sel = .reservedField ↔ sel = 0#2) := by
  revert sel; decide

theorem decodeIshigh_reserved_iff (sel : BitVec 2) (half : Half) :
    decodeIshigh sel half ≠ .reservedOpcode ∧ (decodeIshigh sel half = .reservedField ↔ sel = 3#2) := by
  revert sel; cases half <;> decide

theorem decode_eq_reservedOpcode_iff (w : Word) : decode w = .reservedOpcode ↔ 5 ≤ (fieldOp w).toNat := by
  unfold decode
  split
  case h_1 hop | h_3 hop | h_4 hop => split <;> simp [hop]
  case h_2 hop => split <;> simp [hop, decodeInit_reserved_iff]
  case h_5 hop => split <;> simp [hop, decodeIshigh_reserved_iff]
  case h_6 hop0 hop1 hop2 hop3 hop4 =>
    rw [imp_false] at hop0 hop1 hop2 hop3 hop4
    have hge : 5 ≤ (fieldOp w).toNat := by omega
    simp [hge]

/-- The should-be-zero bits of each command are the fields it does not use. -/
theorem shouldBeZero_iff (w : Word) :
    (w &&& 0x0FFFFFFF#32 = 0#32 ↔ fieldRsv w = 0 ∧ fieldHalf w = 0 ∧ fieldSel w = 0 ∧ fieldCode w = 0) ∧
    (w &&& 0x0FFCFFFF#32 = 0#32 ↔ fieldRsv w = 0 ∧ fieldHalf w = 0 ∧ fieldCode w = 0) ∧
    (w &&& 0x0FFC0000#32 = 0#32 ↔ fieldRsv w = 0 ∧ fieldHalf w = 0) ∧
    (w &&& 0x0FFF0000#32 = 0#32 ↔ fieldRsv w = 0 ∧ fieldHalf w = 0 ∧ fieldSel w = 0) ∧
    (w &&& 0x0FF8FFFF#32 = 0#32 ↔ fieldRsv w = 0 ∧ fieldCode w = 0) := by
  simp [eq_iff_fields, BitVec.extractLsb'_and, field_and_ones, fieldOp, fieldRsv, fieldHalf, fieldSel, fieldCode]

theorem decode_eq_reservedField_iff (w : Word) : decode w = .reservedField ↔
    (fieldOp w = 0#4 ∧ w &&& 0x0FFFFFFF#32 ≠ 0#32) ∨
    (fieldOp w = 1#4 ∧ (w &&& 0x0FFCFFFF#32 ≠ 0#32 ∨ fieldSel w = 0#2)) ∨
    (fieldOp w = 2#4 ∧ w &&& 0x0FFC0000#32 ≠ 0#32) ∨
    (fieldOp w = 3#4 ∧ w &&& 0x0FFF0000#32 ≠ 0#32) ∨
    (fieldOp w = 4#4 ∧ (w &&& 0x0FF8FFFF#32 ≠ 0#32 ∨ fieldSel w = 3#2)) := by
  obtain ⟨hnop, hinit, hwrite, hencode, hishigh⟩ := shouldBeZero_iff w
  simp only [ne_eq, hnop, hinit, hwrite, hencode, hishigh]
  unfold decode
  split
  case h_1 hop =>
    have hop : fieldOp w = 0#4 := BitVec.eq_of_toNat_eq hop
    split <;> simp_all
  case h_2 hop =>
    have hop : fieldOp w = 1#4 := BitVec.eq_of_toNat_eq hop
    split <;> simp_all [decodeInit_reserved_iff]
  case h_3 hop =>
    have hop : fieldOp w = 2#4 := BitVec.eq_of_toNat_eq hop
    split <;> simp_all
  case h_4 hop =>
    have hop : fieldOp w = 3#4 := BitVec.eq_of_toNat_eq hop
    split <;> simp_all
  case h_5 hop =>
    have hop : fieldOp w = 4#4 := BitVec.eq_of_toNat_eq hop
    split <;> simp_all [decodeIshigh_reserved_iff]
  case h_6 hop0 hop1 hop2 hop3 hop4 =>
    have hne : ∀ n : BitVec 4, (fieldOp w).toNat ≠ n.toNat → fieldOp w ≠ n := fun n h e => h (congrArg _ e)
    simp [hne 0#4 hop0, hne 1#4 hop1, hne 2#4 hop2, hne 3#4 hop3, hne 4#4 hop4]

/-- Settles O4: by the decoder's own checks, each in the fields of R141. -/
theorem reservedWordsAreThoseTheRulesName : Obligations.ReservedWordsAreThoseTheRulesName := fun w =>
  ⟨decode_eq_reservedOpcode_iff w, decode_eq_reservedField_iff w⟩

end Sys2Proof
end

section
/-! PROOFS. Halves and roles (file 44) and CONFIG (file 43): the truth table, the timer of each half in each mode, and
that CONFIG settles a timer at once. -/

namespace Sys2Proof.Machine

/-! ## Roles and pins -/

/-- Settles O24: the formula of R300 on the two auxiliary timers, mode by mode. -/
theorem halfRoleTruthTable : Obligations.HalfRoleTruthTable := by
  intro m
  cases m <;> decide

theorem role_timerHigh (m : Mode) : role m (timerHigh m) = .high := by cases m <;> rfl

theorem role_timerLow (m : Mode) : role m (timerLow m) = .low := by cases m <;> rfl

theorem timerHigh_ne_timerLow (m : Mode) : timerHigh m ≠ timerLow m := by cases m <;> decide

theorem timerHigh_ne_pri (m : Mode) : timerHigh m ≠ .pri := by cases m <;> decide

theorem timerLow_ne_pri (m : Mode) : timerLow m ≠ .pri := by cases m <;> decide

/-- Settles O25: the roles from the formula, the pins from the map of R41. -/
theorem everyModeHasOneTimerForEachHalf : Obligations.EveryModeHasOneTimerForEachHalf := by
  refine ⟨fun m => ⟨role_timerHigh m, role_timerLow m, timerHigh_ne_timerLow m, timerHigh_ne_pri m, timerLow_ne_pri m⟩,
    ⟨rfl, rfl, rfl, rfl⟩, ⟨rfl, rfl, rfl, rfl⟩, ⟨rfl, rfl, rfl, rfl⟩, fun m => ⟨rfl, rfl, rfl, rfl⟩⟩

/-! ## CONFIG -/

/-- The second CONFIG writes what the first one left (R284). -/
theorem TimerRegs.config_config {w : Nat} (r : TimerRegs w) (wgm : BitVec 2) (cs : BitVec 3) (pol : BitVec 2)
    (x y : Bool) : (r.config wgm cs pol x y).config wgm cs pol x y = r.config wgm cs pol x y := by
  cases x <;> cases y <;> rfl

/-- Settles O23: MODE, which the polarity and CS are taken from, is not CONFIG's to write. -/
theorem configIsIdempotent : Obligations.ConfigIsIdempotent := by
  intro b t x y
  cases t <;> simp [Block.opConfig, TimerRegs.config_config]

end Sys2Proof.Machine
end

section
/-! PROOFS. The timer unit (file 40): what a tick does to each timer, the synchronizer, and the phase relation that every
tick keeps. -/

namespace Sys2Proof.Machine

/-! ## One register set (R181 to R184) -/

/-- A timer that does not run is not ticked. -/
theorem TimerRegs.tick_stopped {w : Nat} {r : TimerRegs w} (h1 : r.cs ≠ 1#3) (h2 : r.cs ≠ 2#3) (x : Bool)
    (top : Option (BitVec w)) : r.tick x top = r := by
  simp [TimerRegs.tick, TimerRegs.divisor, csDiv1, csDiv256, h1, h2]

/-- PSRST holds the divider of a running timer at 0. -/
theorem TimerRegs.tick_prescalerReset {w : Nat} {r : TimerRegs w} (h : r.cs = 1#3 ∨ r.cs = 2#3)
    (top : Option (BitVec w)) : r.tick true top = { r with psc := 0#8 } := by
  rcases h with h | h <;> simp [TimerRegs.tick, TimerRegs.divisor, csDiv1, csDiv256, h]

/-- DIV1 counts every tick. -/
theorem TimerRegs.tick_div1 {w : Nat} {r : TimerRegs w} (h : r.cs = 1#3) (top : Option (BitVec w)) :
    r.tick false top = { r with psc := 0#8, cnt := nextCount (r.top top) r.cnt } := by
  simp [TimerRegs.tick, TimerRegs.divisor, csDiv1, h, Nat.mod_one]

/-- DIV256 counts the ticks that take its divider from 255 to 0. -/
theorem TimerRegs.tick_div256 {w : Nat} {r : TimerRegs w} (h : r.cs = 2#3) (top : Option (BitVec w)) :
    r.tick false top =
      { r with psc := r.psc + 1#8, cnt := if r.psc = 0xFF#8 then nextCount (r.top top) r.cnt else r.cnt } := by
  have hpsc : BitVec.ofNat 8 ((r.psc.toNat + 1) % 256) = r.psc + 1#8 :=
    BitVec.eq_of_toNat_eq (by simp [BitVec.toNat_add])
  have hwrap : (r.psc.toNat + 1) % 256 = 0 ↔ r.psc = 0xFF#8 := by
    rw [BitVec.toNat_eq]; have := r.psc.isLt; simp; omega
  simp [TimerRegs.tick, TimerRegs.divisor, csDiv1, csDiv256, h, hpsc, hwrap]

/-- A counter at its top goes to 0, any other goes on by one (R184). -/
theorem nextCount_toNat {w : Nat} (top c : BitVec w) :
    (nextCount top c).toNat = if c = top then 0 else (c.toNat + 1) % 2 ^ w := by
  unfold nextCount
  split <;> simp [BitVec.toNat_add]

/-- The top of an auxiliary timer is 255 in every waveform mode. -/
theorem top_aux (r : TimerRegs 8) : r.top none = 0xFF#8 := by
  unfold TimerRegs.top
  split_ifs <;> rfl

/-- At the top of all ones the return to 0 is the overflow of the count. -/
theorem nextCount_aux_toNat (r : TimerRegs 8) : (nextCount (r.top none) r.cnt).toNat = (r.cnt.toNat + 1) % 256 := by
  rw [nextCount_toNat, top_aux]
  split
  · next h => rw [h]; rfl
  · rfl

/-- The top of PRI by WGM, in the codes of CTRL (R182). -/
theorem top_pri (r : TimerRegs 16) (top : BitVec 16) :
    r.top (some top) = if r.wgm = 1#2 then 0x00FF#16 else if r.wgm = 2#2 then top else 0xFFFF#16 := by
  unfold TimerRegs.top wgmNormal wgmFpwm8 wgmFpwmTop
  by_cases h0 : r.wgm = 0#2
  · simp [h0]
  · simp [h0]

/-- R183's cases for one timer, its count seen through a widening `ext` to the 16 bits of CNT. -/
theorem TimerRegs.tick_cases {w : Nat} (r : TimerRegs w) (x : Bool) (top : Option (BitVec w)) (ext : BitVec w → BitVec 16)
    (hext : ∀ c, (ext c).toNat = c.toNat) {advanced : Nat} (hadv : advanced = (nextCount (r.top top) r.cnt).toNat) :
    (r.cs ≠ 1#3 ∧ r.cs ≠ 2#3 → ext (r.tick x top).cnt = ext r.cnt ∧ (r.tick x top).psc = r.psc) ∧
    (r.cs = 1#3 ∨ r.cs = 2#3 → x = true → (r.tick x top).psc = 0#8 ∧ ext (r.tick x top).cnt = ext r.cnt) ∧
    (r.cs = 1#3 → x = false → (r.tick x top).psc = 0#8 ∧ (ext (r.tick x top).cnt).toNat = advanced) ∧
    (r.cs = 2#3 → x = false → (r.tick x top).psc.toNat = (r.psc.toNat + 1) % 256 ∧
      if r.psc = 0xFF#8 then (ext (r.tick x top).cnt).toNat = advanced else ext (r.tick x top).cnt = ext r.cnt) := by
  subst hadv
  refine ⟨?_, ?_, ?_, ?_⟩
  · rintro ⟨h1, h2⟩
    rw [tick_stopped h1 h2]
    exact ⟨rfl, rfl⟩
  · rintro h rfl
    rw [tick_prescalerReset h]
    exact ⟨rfl, rfl⟩
  · rintro h rfl
    rw [tick_div1 h, hext]
    exact ⟨rfl, rfl⟩
  · rintro h rfl
    rw [tick_div256 h]
    refine ⟨by simp [BitVec.toNat_add], ?_⟩
    split <;> simp [*]

/-! ## The timers of a block -/

theorem tick_regs {b : Block} (hhalt : b.halt = false) :
    b.tick.aux1 = b.aux1.tick b.psrst none ∧ b.tick.pri = b.pri.tick b.psrst (some b.priTop) ∧
      b.tick.aux2 = b.aux2.tick b.psrst none := by
  simp [Block.tick, hhalt]

/-- The count that a timer's advance leads to (R182, R184): PRI by its WGM and TOP, an auxiliary timer modulo 256. -/
def Block.advanced (b : Block) (t : Timer) : Nat :=
  if t = .pri then
    if b.pri.cnt = (if b.pri.wgm = 1#2 then 0x00FF#16 else if b.pri.wgm = 2#2 then b.priTop else 0xFFFF#16) then 0
    else (b.pri.cnt.toNat + 1) % 65536
  else ((b.cnt t).toNat + 1) % 256

/-- R183's cases for each timer of a block that is not halted. -/
theorem tick_timer {b : Block} (hhalt : b.halt = false) (t : Timer) :
    (b.cs t ≠ 1#3 ∧ b.cs t ≠ 2#3 → b.tick.cnt t = b.cnt t ∧ b.tick.psc t = b.psc t) ∧
    (b.cs t = 1#3 ∨ b.cs t = 2#3 → b.psrst = true → b.tick.psc t = 0#8 ∧ b.tick.cnt t = b.cnt t) ∧
    (b.cs t = 1#3 → b.psrst = false → b.tick.psc t = 0#8 ∧ (b.tick.cnt t).toNat = b.advanced t) ∧
    (b.cs t = 2#3 → b.psrst = false → (b.tick.psc t).toNat = ((b.psc t).toNat + 1) % 256 ∧
      if b.psc t = 0xFF#8 then (b.tick.cnt t).toNat = b.advanced t else b.tick.cnt t = b.cnt t) := by
  have hwide : ∀ c : BitVec 8, (c.setWidth 16).toNat = c.toNat := fun c => by simp; omega
  obtain ⟨haux1, hpri, haux2⟩ := tick_regs hhalt
  cases t with
  | aux1 =>
    simp only [Block.cnt, Block.psc, Block.cs, haux1]
    exact b.aux1.tick_cases b.psrst none _ hwide ((hwide _ ▸ nextCount_aux_toNat b.aux1).symm)
  | aux2 =>
    simp only [Block.cnt, Block.psc, Block.cs, haux2]
    exact b.aux2.tick_cases b.psrst none _ hwide ((hwide _ ▸ nextCount_aux_toNat b.aux2).symm)
  | pri =>
    simp only [Block.cnt, Block.psc, Block.cs, hpri]
    refine b.pri.tick_cases b.psrst (some b.priTop) id (fun _ => rfl) ?_
    rw [nextCount_toNat, top_pri]
    rfl

/-- A tick is the timer unit's own turn. -/
theorem step_tick {s : State} {rest : List Turn} (hs : s.sched = .tick :: rest) :
    step s = .next { s with sched := rest, block := s.block.tick } := by
  have hf : fetch s = none := by simp [fetch, hs]
  rw [step_of_cons hs, hf, ← done_of_cons hs]
  simp [agentTurn, hs, tickTurn]

/-- Settles O38: the turn is the block's tick, whose cases are those of its timers. -/
theorem tickAdvancesDividersAndCounters : Obligations.TickAdvancesDividersAndCounters := by
  intro s rest hs
  refine ⟨s.block.tick, step_tick hs, withoutCounts_tick _, tick_halted, ?_⟩
  rintro hhalt t advanced rfl
  exact tick_timer hhalt t

/-! ## Configured timers -/

theorem priConfigured_iff (b : Block) :
    b.priConfigured ↔ b.wgm .pri = wgmFpwmTop ∧ b.cs .pri = csDiv1 ∧ b.priTop = 0xFFFF#16 := Iff.rfl

@[simp] theorem priConfigured_tick (b : Block) : b.tick.priConfigured ↔ b.priConfigured := by simp [priConfigured_iff]

@[simp] theorem auxConfigured_tick (b : Block) (t : Timer) : b.tick.auxConfigured t ↔ b.auxConfigured t := by
  simp [Block.auxConfigured]

/-- A timer without a clock keeps its count and its divider, halted or not. -/
theorem auxStopped_tick {b : Block} {t : Timer} (h : b.auxStopped t) : b.tick.auxStopped t := by
  obtain ⟨hcs, hcnt, hpsc⟩ := h
  cases hhalt : b.halt with
  | true => rw [tick_halted hhalt]; exact ⟨hcs, hcnt, hpsc⟩
  | false =>
    obtain ⟨hkeep, -, -, -⟩ := tick_timer hhalt t
    obtain ⟨hcnt', hpsc'⟩ := hkeep (by rw [hcs]; decide)
    exact ⟨by rw [cs_tick, hcs], hcnt'.trans hcnt, hpsc'.trans hpsc⟩

/-- PRI as CONFIG leaves it counts every tick, modulo 65536 (R184, R185). -/
theorem tick_priConfigured {b : Block} (hhalt : b.halt = false) (hpsrst : b.psrst = false) (h : b.priConfigured) :
    b.tick.psc .pri = 0#8 ∧ (b.tick.cnt .pri).toNat = ((b.cnt .pri).toNat + 1) % 65536 := by
  obtain ⟨hwgm, hcs, htop⟩ := h
  obtain ⟨-, -, hdiv1, -⟩ := tick_timer hhalt .pri
  obtain ⟨hpsc, hcnt⟩ := hdiv1 hcs hpsrst
  refine ⟨hpsc, hcnt.trans ?_⟩
  have hwgm2 : b.pri.wgm = 2#2 := hwgm
  simp only [Block.advanced, hwgm2, htop, Block.cnt, if_true]
  by_cases hfull : b.pri.cnt = 0xFFFF#16
  · simp [hfull]
  · simp [hfull]

theorem auxConfigured_of {b : Block} {t : Timer} (h1 : b.auxConfigured .aux1) (h2 : b.auxConfigured .aux2)
    (ht : t ≠ .pri) : b.auxConfigured t := by
  cases t with
  | aux1 => exact h1
  | aux2 => exact h2
  | pri => exact absurd rfl ht

theorem advanced_aux (b : Block) {t : Timer} (ht : t ≠ .pri) : b.advanced t = ((b.cnt t).toNat + 1) % 256 := by
  simp [Block.advanced, ht]

/-! ## The phase relation (R185) -/

/-- The phase relation with every register as a number: `c` is PRI's count. -/
theorem phaseLocked_iff (b : Block) : b.phaseLocked ↔
    b.psc .pri = 0#8 ∧ b.psc (timerLow b.mode) = 0#8 ∧
      (b.cnt (timerLow b.mode)).toNat = (b.cnt .pri).toNat % 256 ∧
      (b.cnt (timerHigh b.mode)).toNat = (b.cnt .pri).toNat / 256 ∧
      (b.psc (timerHigh b.mode)).toNat = (b.cnt .pri).toNat % 256 := by
  have hmask : (b.pri.cnt &&& 0x00FF#16).toNat = b.pri.cnt.toNat % 256 := by
    rw [BitVec.toNat_and]
    exact Nat.and_two_pow_sub_one_eq_mod _ 8
  have hshift : (b.pri.cnt >>> 8).toNat = b.pri.cnt.toNat / 256 := by
    rw [BitVec.toNat_ushiftRight, Nat.shiftRight_eq_div_pow]
  have hnarrow : (b.pri.cnt.setWidth 8).toNat = b.pri.cnt.toNat % 256 := BitVec.toNat_setWidth ..
  unfold Block.phaseLocked
  rw [BitVec.toNat_eq (x := b.cnt (timerLow b.mode)), BitVec.toNat_eq (x := b.cnt (timerHigh b.mode)),
    BitVec.toNat_eq (x := b.psc (timerHigh b.mode)), hmask, hshift, hnarrow]
  exact Iff.rfl

/-- Ticks keep the phase relation: TL and TH's divider go round with PRI's low byte, and TH takes its carry. -/
theorem phaseLocked_tick {b : Block} (hhalt : b.halt = false) (hpsrst : b.psrst = false) (hpri : b.priConfigured)
    (h1 : b.auxConfigured .aux1) (h2 : b.auxConfigured .aux2) (h : b.phaseLocked) : b.tick.phaseLocked := by
  rw [phaseLocked_iff] at h ⊢
  rw [tick_mode]
  obtain ⟨-, -, hlow, hhigh, hdiv⟩ := h
  obtain ⟨hpsc', hc'⟩ := tick_priConfigured hhalt hpsrst hpri
  have hcsLow : b.cs (timerLow b.mode) = 1#3 := by
    rw [(auxConfigured_of h1 h2 (timerLow_ne_pri b.mode)).2, role_timerLow]; rfl
  have hcsHigh : b.cs (timerHigh b.mode) = 2#3 := by
    rw [(auxConfigured_of h1 h2 (timerHigh_ne_pri b.mode)).2, role_timerHigh]; rfl
  obtain ⟨-, -, hdiv1, -⟩ := tick_timer hhalt (timerLow b.mode)
  obtain ⟨-, -, -, hdiv256⟩ := tick_timer hhalt (timerHigh b.mode)
  obtain ⟨hpscLow', hlow'⟩ := hdiv1 hcsLow hpsrst
  obtain ⟨hdiv', hhigh'⟩ := hdiv256 hcsHigh hpsrst
  rw [advanced_aux b (timerLow_ne_pri _)] at hlow'
  rw [advanced_aux b (timerHigh_ne_pri _)] at hhigh'
  have hc : (b.cnt .pri).toNat < 65536 := (b.cnt .pri).isLt
  refine ⟨hpsc', hpscLow', by omega, ?_, by omega⟩
  by_cases hcarry : b.psc (timerHigh b.mode) = 0xFF#8
  · rw [if_pos hcarry] at hhigh'
    rw [hcarry] at hdiv
    have hdiv : 255 = (b.cnt .pri).toNat % 256 := hdiv
    omega
  · rw [if_neg hcarry] at hhigh'
    rw [hhigh']
    have hne : (b.psc (timerHigh b.mode)).toNat ≠ 255 := fun e => hcarry (BitVec.eq_of_toNat_eq e)
    omega

/-- From counters and dividers all 0 the phase relation holds. -/
theorem phaseLocked_of_countsZero {b : Block} (h : b.countsZero) : b.phaseLocked := by
  have hcnt : ∀ t, (b.cnt t).toNat = 0 := fun t => by rw [(h t).1]; rfl
  have hpsc : ∀ t, (b.psc t).toNat = 0 := fun t => by rw [(h t).2]; rfl
  rw [phaseLocked_iff, hcnt, hcnt, hcnt, hpsc]
  exact ⟨(h _).2, (h _).2, rfl, rfl, rfl⟩

/-- Ticks keep the timers synchronized (R185, R433). -/
theorem timersSynced_tick {b : Block} (hpsrst : b.psrst = false) (h : b.timersSynced) : b.tick.timersSynced := by
  cases hhalt : b.halt with
  | true => rw [tick_halted hhalt]; exact h
  | false =>
    obtain ⟨hpri, hrest⟩ := h
    refine ⟨(priConfigured_tick b).mpr hpri, ?_⟩
    rw [tick_mode]
    split at hrest
    · next hm =>
      obtain ⟨h1, h2, hphase⟩ := hrest
      rw [if_pos hm]
      exact ⟨(auxConfigured_tick b _).mpr h1, (auxConfigured_tick b _).mpr h2,
        phaseLocked_tick hhalt hpsrst hpri h1 h2 hphase⟩
    · next hm =>
      obtain ⟨-, h1, h2⟩ := hrest
      rw [if_neg hm]
      exact ⟨(tick_priConfigured hhalt hpsrst hpri).1, auxStopped_tick h1, auxStopped_tick h2⟩

/-! ## Several ticks -/

/-- What every tick keeps, any number of ticks keeps. -/
theorem ticks_keep {P : Block → Prop} (hP : ∀ b, P b → P b.tick) (n : Nat) {b : Block} (h : P b) :
    P (Block.ticks n b) := by
  induction n generalizing b with
  | zero => exact h
  | succ n ih => exact ih (hP b h)

theorem ticks_halted (n : Nat) {b : Block} (h : b.halt = true) : Block.ticks n b = b := by
  induction n with
  | zero => rfl
  | succ n ih => rw [Block.ticks, tick_halted h, ih]

/-- SYNC_CLEAR reaches every timer, running or stopped (R227). -/
theorem countsZero_withoutCounts (b : Block) : b.withoutCounts.countsZero := by
  intro t
  cases t with
  | aux1 | pri | aux2 => exact ⟨rfl, rfl⟩

/-- Settles O16: ticks before SYNC_CLEAR are undone by it, and none counts between HALT and its release. -/
theorem synchronizerLeavesEveryCounterZero : Obligations.SynchronizerLeavesEveryCounterZero := by
  intro b m n k
  have hhalted : ∀ b : Block, b.halt = true → ((Block.ticks n b).perform .syncClear).halt = true := fun b h => by
    rw [ticks_halted n h]; exact h
  have hclear := ticks_halted k (hhalted ((Block.ticks m b).perform .syncHalt) rfl)
  refine ⟨?_, rfl, rfl⟩
  rw [hclear]
  exact countsZero_withoutCounts (Block.ticks n ((Block.ticks m b).perform .syncHalt))

/-- The block runs in phase in the four-channel mode `m`, nothing held. -/
def Block.inPhase (m : Mode) (b : Block) : Prop :=
  b.mode = m ∧ b.halt = false ∧ b.psrst = false ∧ b.timersSynced

theorem inPhase_tick {m : Mode} {b : Block} (h : b.inPhase m) : b.tick.inPhase m := by
  obtain ⟨hm, hhalt, hpsrst, hsynced⟩ := h
  exact ⟨by rw [tick_mode, hm], by rw [tick_halt, hhalt], by rw [tick_psrst, hpsrst], timersSynced_tick hpsrst hsynced⟩

/-- PRI's count after n ticks. -/
theorem ticks_priCount {m : Mode} (n : Nat) {b : Block} (h : b.inPhase m) :
    ((Block.ticks n b).cnt .pri).toNat = ((b.cnt .pri).toNat + n) % 65536 := by
  induction n generalizing b with
  | zero => exact (Nat.mod_eq_of_lt (b.cnt .pri).isLt).symm
  | succ n ih =>
    rw [Block.ticks, ih (inPhase_tick h)]
    obtain ⟨-, hhalt, hpsrst, hpri, -⟩ := h
    rw [(tick_priConfigured hhalt hpsrst hpri).2]
    omega

/-- Settles O17: PRI counts the ticks, and the phase relation gives the other registers from its count. -/
theorem countersTellTheTicksSinceSynchronization : Obligations.CountersTellTheTicksSinceSynchronization := by
  intro b n hm hpri h1 h2 hzero hhalt hpsrst
  have hsynced : b.timersSynced := ⟨hpri, by rw [if_pos hm]; exact ⟨h1, h2, phaseLocked_of_countsZero hzero⟩⟩
  have hstart : b.inPhase b.mode := ⟨rfl, hhalt, hpsrst, hsynced⟩
  have hcount : ((Block.ticks n b).cnt .pri).toNat = n % 65536 := by
    rw [ticks_priCount n hstart, (hzero .pri).1]; simp
  obtain ⟨hm', -, -, -, hrest⟩ := ticks_keep (P := Block.inPhase b.mode) (fun _ => inPhase_tick) n hstart
  rw [hm', if_pos hm] at hrest
  obtain ⟨-, -, hphase⟩ := hrest
  obtain ⟨hpsc, hpscLow, hlow, hhigh, hdiv⟩ := (phaseLocked_iff _).mp hphase
  rw [hm', hcount] at hlow hhigh hdiv
  rw [hm'] at hpscLow
  exact ⟨hcount, hpsc, by omega, hpscLow, by omega, by omega⟩

/-! ## Micro-operations and counters (R434) -/

/-- What a micro-operation does, counters apart, does not depend on the counters. -/
theorem perform_withoutCounts (b : Block) (op : MicroOp) :
    (b.withoutCounts.perform op).withoutCounts = (b.perform op).withoutCounts := by
  cases op with
  | config t => cases t <;> rfl
  | writeOcr t s => cases t <;> cases s <;> rfl
  | static p v =>
    simp only [perform_static, Block.setCom]
    generalize tmr p = t, subch p = s
    cases t <;> cases s <;> rfl
  | saveCom p =>
    simp only [perform_saveCom, Block.opSaveCom]
    generalize tmr p = t, subch p = s
    cases t <;> cases s <;> rfl
  | restoreCom p =>
    simp only [perform_restoreCom, Block.setCom]
    generalize tmr p = t, subch p = s
    cases t <;> cases s <;> rfl
  | _ => rfl

/-- Blocks that differ in counters only are left so by a micro-operation. -/
theorem perform_congr_withoutCounts {b c : Block} (h : b.withoutCounts = c.withoutCounts) (op : MicroOp) :
    (b.perform op).withoutCounts = (c.perform op).withoutCounts := by
  rw [← perform_withoutCounts b, h, perform_withoutCounts]

/-- Settles O39: a tick writes counters only, and SYNC_CLEAR alone writes them among the micro-operations. -/
theorem microOperationsDoNotReadCounters : Obligations.MicroOperationsDoNotReadCounters := fun b op =>
  ⟨perform_congr_withoutCounts (withoutCounts_tick b) op, perform_withoutCounts b op,
    fun h t => ⟨perform_cnt b op h t, perform_psc b op h t⟩⟩

end Sys2Proof.Machine
end

section
/-! PROOFS. The micro-programs (files 30, 41, 45, 46): the paths of WRITE written out, the lengths, the order of
configuration and compare writes, the compare values, and the pins a WRITE acts on. -/

namespace Sys2Proof.Machine

/-! ## The encoder's bytes on an unflagged code -/

theorem encodeDuty_flags {code : Code} (hon : code ≠ 0xFFFF#16) (hoff : code ≠ 0x0000#16) :
    (encodeDuty code).fullOn = false ∧ (encodeDuty code).fullOff = false := by
  rw [encodeDuty_unflagged hon hoff]
  exact ⟨rfl, rfl⟩

/-- The two bytes of an unflagged code are those of code + 1 (R250). -/
theorem encodeDuty_bytes {code : Code} (hon : code ≠ 0xFFFF#16) (hoff : code ≠ 0x0000#16) :
    (encodeDuty code).high.toNat = (code.toNat + 1) / 256 ∧ (encodeDuty code).low.toNat = (code.toNat + 1) % 256 := by
  obtain ⟨-, -, h⟩ := encoderFollowsItsTable code
  obtain ⟨-, -, hhigh, hlow⟩ := h hon hoff
  exact ⟨hhigh, hlow⟩

/-- Code + 1 is not 0, so its bytes are not both 0 (R254). -/
theorem encodeDuty_bytes_not_both_zero {code : Code} (hon : code ≠ 0xFFFF#16) (hoff : code ≠ 0x0000#16) :
    ¬ ((encodeDuty code).high = 0#8 ∧ (encodeDuty code).low = 0#8) := by
  rintro ⟨hh, hl⟩
  obtain ⟨hhigh, hlow⟩ := encodeDuty_bytes hon hoff
  rw [hh] at hhigh
  rw [hl] at hlow
  have h0 : (0#8).toNat = 0 := rfl
  omega

/-! ## The paths of WRITE -/

/-- The three paths of a primary-routed WRITE, each with its micro-program written out (R322, R330). -/
inductive PrimaryPath (s : SubChannel) (code : Code) : List MicroOp → Prop
  | on (h : code = 0xFFFF#16) : PrimaryPath s code [.setDir (pin .pri s), .static (pin .pri s) true]
  | off (h : code = 0x0000#16) : PrimaryPath s code [.setDir (pin .pri s), .static (pin .pri s) false]
  | duty (hon : code ≠ 0xFFFF#16) (hoff : code ≠ 0x0000#16) :
      PrimaryPath s code [.setDir (pin .pri s), .config .pri (s == .a) (s == .b), .writeOcr .pri s code]

/-- The micro-program of the path taken is the one `primaryProgram` gives. -/
theorem primaryProgram_path (s : SubChannel) (code : Code) : PrimaryPath s code (primaryProgram s code) := by
  by_cases hon : code = 0xFFFF#16
  · subst hon; exact .on rfl
  · by_cases hoff : code = 0x0000#16
    · subst hoff; exact .off rfl
    · obtain ⟨hfon, hfoff⟩ := encodeDuty_flags hon hoff
      have hprog : primaryProgram s code =
          [.setDir (pin .pri s), .config .pri (s == .a) (s == .b), .writeOcr .pri s code] := by
        simp [primaryProgram, hfon, hfoff]
      exact hprog ▸ .duty hon hoff

/-- The five paths of an auxiliary-routed WRITE, each with its micro-program written out (R322, R327, R328, R331). -/
inductive AuxiliaryPath (m : Mode) (s : SubChannel) (code : Code) : List MicroOp → Prop
  | on (h : code = 0xFFFF#16) : AuxiliaryPath m s code
      [MicroOp.setDir (pin (timerHigh m) s), MicroOp.setDir (pin (timerLow m) s),
        MicroOp.static (pin (timerHigh m) s) true, MicroOp.static (pin (timerLow m) s) true]
  | off (h : code = 0x0000#16) : AuxiliaryPath m s code
      ([MicroOp.setDir (pin (timerHigh m) s), MicroOp.setDir (pin (timerLow m) s),
        MicroOp.static (pin (timerHigh m) s) false, MicroOp.static (pin (timerLow m) s) false]
        ++ clearProgram (pin (timerHigh m) s) (pin (timerLow m) s))
  | highZero (hon : code ≠ 0xFFFF#16) (hoff : code ≠ 0x0000#16) (hhigh : (encodeDuty code).high = 0#8)
      (hlow : (encodeDuty code).low ≠ 0#8) : AuxiliaryPath m s code
      ([MicroOp.setDir (pin (timerHigh m) s), MicroOp.setDir (pin (timerLow m) s), MicroOp.static (pin (timerHigh m) s) false]
        ++ clearProgram (pin (timerHigh m) s) (pin (timerLow m) s)
        ++ [MicroOp.config (timerHigh m) false false, MicroOp.config (timerLow m) (s == .a) (s == .b)]
        ++ [MicroOp.writeOcr (timerLow m) s (((encodeDuty code).low - 1#8).setWidth 16)])
  | lowZero (hon : code ≠ 0xFFFF#16) (hoff : code ≠ 0x0000#16) (hhigh : (encodeDuty code).high ≠ 0#8)
      (hlow : (encodeDuty code).low = 0#8) : AuxiliaryPath m s code
      ([MicroOp.setDir (pin (timerHigh m) s), MicroOp.setDir (pin (timerLow m) s), MicroOp.static (pin (timerLow m) s) false]
        ++ clearProgram (pin (timerHigh m) s) (pin (timerLow m) s)
        ++ [MicroOp.config (timerHigh m) (s == .a) (s == .b), MicroOp.config (timerLow m) false false]
        ++ [MicroOp.writeOcr (timerHigh m) s (((encodeDuty code).high - 1#8).setWidth 16)])
  | duty (hon : code ≠ 0xFFFF#16) (hoff : code ≠ 0x0000#16) (hhigh : (encodeDuty code).high ≠ 0#8)
      (hlow : (encodeDuty code).low ≠ 0#8) : AuxiliaryPath m s code
      ([MicroOp.setDir (pin (timerHigh m) s), MicroOp.setDir (pin (timerLow m) s)]
        ++ [MicroOp.config (timerHigh m) (s == .a) (s == .b), MicroOp.config (timerLow m) (s == .a) (s == .b)]
        ++ [MicroOp.writeOcr (timerHigh m) s (((encodeDuty code).high - 1#8).setWidth 16),
          MicroOp.writeOcr (timerLow m) s (((encodeDuty code).low - 1#8).setWidth 16)])

theorem configHalf_zero (t : Timer) (s : SubChannel) : configHalf t s 0#8 = .config t false false := by
  simp [configHalf]

theorem configHalf_nonzero (t : Timer) (s : SubChannel) {byte : Byte} (h : byte ≠ 0#8) :
    configHalf t s byte = .config t (s == .a) (s == .b) := by
  simp [configHalf, h]

theorem ocrProgram_zero (t : Timer) (s : SubChannel) : ocrProgram t s 0#8 = [] := rfl

theorem ocrProgram_nonzero (t : Timer) (s : SubChannel) {byte : Byte} (h : byte ≠ 0#8) :
    ocrProgram t s byte = [.writeOcr t s ((byte - 1#8).setWidth 16)] := by
  simp [ocrProgram, ocrOfByte, h]

/-- The micro-program of the path taken is the one `auxiliaryProgram` gives. -/
theorem auxiliaryProgram_path (m : Mode) (s : SubChannel) (code : Code) :
    AuxiliaryPath m s code (auxiliaryProgram m s code) := by
  by_cases hon : code = 0xFFFF#16
  · subst hon; exact .on rfl
  by_cases hoff : code = 0x0000#16
  · subst hoff; exact .off rfl
  obtain ⟨hfon, hfoff⟩ := encodeDuty_flags hon hoff
  have hprog : auxiliaryProgram m s code =
      [.setDir (pin (timerHigh m) s), .setDir (pin (timerLow m) s)]
        ++ zeroProgram (pin (timerHigh m) s) (pin (timerLow m) s) (encodeDuty code).high (encodeDuty code).low
        ++ [configHalf (timerHigh m) s (encodeDuty code).high, configHalf (timerLow m) s (encodeDuty code).low]
        ++ ocrProgram (timerHigh m) s (encodeDuty code).high ++ ocrProgram (timerLow m) s (encodeDuty code).low := by
    simp [auxiliaryProgram, hfon, hfoff]
  rw [hprog]
  by_cases hhigh : (encodeDuty code).high = 0#8
  · have hlow : (encodeDuty code).low ≠ 0#8 := fun h => encodeDuty_bytes_not_both_zero hon hoff ⟨hhigh, h⟩
    have path := AuxiliaryPath.highZero (m := m) (s := s) hon hoff hhigh hlow
    rw [hhigh, configHalf_zero, configHalf_nonzero _ _ hlow, ocrProgram_zero, ocrProgram_nonzero _ _ hlow]
    exact path
  · by_cases hlow : (encodeDuty code).low = 0#8
    · have path := AuxiliaryPath.lowZero (m := m) (s := s) hon hoff hhigh hlow
      rw [hlow, configHalf_zero, configHalf_nonzero _ _ hhigh, ocrProgram_zero, ocrProgram_nonzero _ _ hhigh]
      simpa [zeroProgram, hhigh] using path
    · have path := AuxiliaryPath.duty (m := m) (s := s) hon hoff hhigh hlow
      rw [configHalf_nonzero _ _ hhigh, configHalf_nonzero _ _ hlow, ocrProgram_nonzero _ _ hhigh,
        ocrProgram_nonzero _ _ hlow]
      simpa [zeroProgram, hhigh, hlow] using path

theorem writeProgram_invalid {m : Mode} {ch : Channel} (h : validChannel m ch = false) (code : Code) :
    writeProgram m ch code = [] := by simp [writeProgram, h]

theorem writeProgram_primary {ch : Channel} (h : primaryRouted ch = true) (m : Mode) (code : Code) :
    writeProgram m ch code = primaryProgram (channelSub ch) code := by simp [writeProgram, validChannel, h]

theorem writeProgram_auxiliary {m : Mode} {ch : Channel} (h : primaryRouted ch = false) (hm : fourChannel m = true)
    (code : Code) : writeProgram m ch code = auxiliaryProgram m (channelSub ch) code := by
  simp [writeProgram, validChannel, h, hm]

/-- Every path of WRITE: an invalid channel's, a primary-routed channel's, or an auxiliary-routed channel's (R321). -/
inductive WritePath (m : Mode) (ch : Channel) (code : Code) : List MicroOp → Prop
  | invalid (h : validChannel m ch = false) : WritePath m ch code []
  | primary (h : primaryRouted ch = true) {p : List MicroOp} (path : PrimaryPath (channelSub ch) code p) :
      WritePath m ch code p
  | auxiliary (h : primaryRouted ch = false) (hm : fourChannel m = true) {p : List MicroOp}
      (path : AuxiliaryPath m (channelSub ch) code p) : WritePath m ch code p

theorem writeProgram_path (m : Mode) (ch : Channel) (code : Code) :
    WritePath m ch code (writeProgram m ch code) := by
  cases hr : primaryRouted ch with
  | true => rw [writeProgram_primary hr]; exact .primary hr (primaryProgram_path _ _)
  | false =>
    cases hm : fourChannel m with
    | true => rw [writeProgram_auxiliary hr hm]; exact .auxiliary hr hm (auxiliaryProgram_path _ _ _)
    | false =>
      have hv : validChannel m ch = false := by simp [validChannel, hr, hm]
      rw [writeProgram_invalid hv]
      exact .invalid hv

/-! ## Lengths (R167) -/

theorem PrimaryPath.length_eq {s : SubChannel} {code : Code} {p : List MicroOp} (h : PrimaryPath s code p) :
    p.length = if code = 0x0000#16 ∨ code = 0xFFFF#16 then 2 else 3 := by
  cases h with
  | on h => simp [h]
  | off h => simp [h]
  | duty hon hoff => simp [hon, hoff]

theorem AuxiliaryPath.length_eq {m : Mode} {s : SubChannel} {code : Code} {p : List MicroOp}
    (h : AuxiliaryPath m s code p) : p.length = auxiliaryLength code := by
  unfold auxiliaryLength
  cases h with
  | on h => simp [h]
  | off h => simp [h, clearProgram]
  | highZero hon hoff hhigh hlow => simp [hon, hoff, hhigh, clearProgram]
  | lowZero hon hoff hhigh hlow => simp [hon, hoff, hlow, clearProgram]
  | duty hon hoff hhigh hlow => simp [hon, hoff, hhigh, hlow]

theorem writeProgram_length (m : Mode) (ch : Channel) (code : Code) : (writeProgram m ch code).length =
    if validChannel m ch = false then 0
    else if primaryRouted ch then (if code = 0x0000#16 ∨ code = 0xFFFF#16 then 2 else 3)
    else auxiliaryLength code := by
  have path := writeProgram_path m ch code
  generalize writeProgram m ch code = p at path
  cases path with
  | invalid h => simp [h]
  | primary h path => simp [validChannel, h, path.length_eq]
  | auxiliary h hm path => simp [validChannel, h, hm, path.length_eq]

theorem auxiliaryLength_le (code : Code) : auxiliaryLength code ≤ 11 := by
  unfold auxiliaryLength
  split_ifs <;> decide

/-- Settles O31: WRITE's lengths by its paths, the others by evaluation. -/
theorem microProgramLengths : Obligations.MicroProgramLengths := by
  refine ⟨fun m => ⟨rfl, rfl, rfl, rfl⟩, fun m code half => ⟨rfl, rfl, rfl, rfl⟩, ?_, ?_⟩
  · intro m ch code
    refine (writeProgram_length m ch code).trans ?_
    have hneither : ¬ ((encodeDuty code).high ≠ 0#8 ∧ (encodeDuty code).low ≠ 0#8) ↔
        (encodeDuty code).high = 0#8 ∨ (encodeDuty code).low = 0#8 := by tauto
    simp only [auxiliaryLength, ← hneither, ite_not]
  · intro i m
    cases i with
    | write ch code =>
      refine (writeProgram_length m ch code).trans_le ?_
      split_ifs
      · decide
      · decide
      · decide
      · exact auxiliaryLength_le code
    | nop | initTwo | initFour | initRev | encode _ | ishighAux1 _ | ishighPri _ | ishighAux2 _ =>
      simp [uprog, initProgram, syncProgram, fourChannel]

/-! ## Configuration before compare writes (R329) -/

/-- A micro-operation that R329 speaks of: a CONFIG that enables a sub-channel, or a WRITE_OCR. -/
def MicroOp.isCompareStep : MicroOp → Bool
  | .config _ enA enB => enA || enB
  | .writeOcr _ _ _ => true
  | _ => false

/-- A micro-program on sub-channel s in the order of R329: other work, then the CONFIGs, which enable s or nothing, then
the WRITE_OCRs, one for each timer that a CONFIG enables. -/
structure ConfiguresFirst (s : SubChannel) (prelude configs writes : List MicroOp) : Prop where
  prelude_plain : ∀ op ∈ prelude, op.isCompareStep = false
  configs_only : ∀ op ∈ configs, ∃ t, op = .config t false false ∨ op = .config t (s == .a) (s == .b)
  writes_only : ∀ op ∈ writes, ∃ t v, op = .writeOcr t s v
  matched : ∀ t, .config t (s == .a) (s == .b) ∈ configs ↔ ∃ v, .writeOcr t s v ∈ writes

/-- R329 for one micro-program, in positions. -/
def CompareOrdered (p : List MicroOp) : Prop :=
  ∀ (k : Nat) (t : Timer),
    (∀ s v, p[k]? = some (.writeOcr t s v) →
      ∃ j enA enB, j < k ∧ p[j]? = some (.config t enA enB) ∧ (if s = .a then enA else enB) = true) ∧
    (∀ s enA enB, p[k]? = some (.config t enA enB) → (if s = .a then enA else enB) = true →
      ∃ j v, k < j ∧ p[j]? = some (.writeOcr t s v))

theorem isCompareStep_config {t : Timer} {s : SubChannel} {enA enB : Bool}
    (h : (if s = .a then enA else enB) = true) : (MicroOp.config t enA enB).isCompareStep = true := by
  cases s <;> simp_all [MicroOp.isCompareStep]

/-- `s == .a`, `s == .b` enable the sub-channel s and no other. -/
theorem enabled_iff (s s' : SubChannel) : (if s' = .a then s == .a else s == .b) = true ↔ s' = s := by
  cases s <;> cases s' <;> decide

theorem ConfiguresFirst.ordered {s : SubChannel} {prelude configs writes : List MicroOp}
    (h : ConfiguresFirst s prelude configs writes) : CompareOrdered (prelude ++ configs ++ writes) := by
  intro k t
  constructor
  · intro s' v hk
    have hwrite : prelude.length + configs.length ≤ k ∧ MicroOp.writeOcr t s' v ∈ writes := by
      rw [List.getElem?_append] at hk
      split at hk
      · exfalso
        rcases List.mem_append.mp (List.mem_of_getElem? hk) with hmem | hmem
        · exact absurd (h.prelude_plain _ hmem) (by simp [MicroOp.isCompareStep])
        · obtain ⟨_, e | e⟩ := h.configs_only _ hmem <;> cases e
      · next hlen => exact ⟨by simpa using hlen, List.mem_of_getElem? hk⟩
    obtain ⟨hlen, hmem⟩ := hwrite
    obtain ⟨_, _, e⟩ := h.writes_only _ hmem
    cases e
    obtain ⟨j, hj⟩ := List.mem_iff_getElem?.mp ((h.matched t).mpr ⟨v, hmem⟩)
    have hjlen : j < configs.length := (List.getElem?_eq_some_iff.mp hj).1
    refine ⟨prelude.length + j, s == .a, s == .b, by omega, ?_, (enabled_iff s s).mpr rfl⟩
    rw [List.getElem?_append_left (by simp; omega), List.getElem?_append_right (by omega), Nat.add_sub_cancel_left]
    exact hj
  · intro s' enA enB hk hen
    have hconfig : k < prelude.length + configs.length ∧ MicroOp.config t enA enB ∈ configs := by
      rw [List.getElem?_append] at hk
      split at hk
      · next hlen =>
        rcases List.mem_append.mp (List.mem_of_getElem? hk) with hmem | hmem
        · exact absurd (h.prelude_plain _ hmem) (by simp [isCompareStep_config hen])
        · exact ⟨by simpa using hlen, hmem⟩
      · obtain ⟨_, _, e⟩ := h.writes_only _ (List.mem_of_getElem? hk)
        cases e
    obtain ⟨hlen, hmem⟩ := hconfig
    obtain ⟨_, e | e⟩ := h.configs_only _ hmem
    · cases e
      simp at hen
    · cases e
      obtain rfl := (enabled_iff s s').mp hen
      obtain ⟨v, hwrite⟩ := (h.matched t).mp hmem
      obtain ⟨j, hj⟩ := List.mem_iff_getElem?.mp hwrite
      refine ⟨prelude.length + configs.length + j, v, by omega, ?_⟩
      rw [List.getElem?_append_right (by simp), List.length_append, Nat.add_sub_cancel_left]
      exact hj

/-- A micro-program without such steps is in order. -/
theorem compareOrdered_of_plain {p : List MicroOp} (h : ∀ op ∈ p, op.isCompareStep = false) : CompareOrdered p := by
  have hnil : ConfiguresFirst .a p [] [] := ⟨h, by simp, by simp, by simp⟩
  simpa using hnil.ordered

theorem PrimaryPath.ordered {s : SubChannel} {code : Code} {p : List MicroOp} (h : PrimaryPath s code p) :
    CompareOrdered p := by
  cases h with
  | on | off => exact compareOrdered_of_plain (by simp [MicroOp.isCompareStep])
  | duty =>
    have order : ConfiguresFirst s [.setDir (pin .pri s)] [.config .pri (s == .a) (s == .b)] [.writeOcr .pri s code] :=
      ⟨by simp [MicroOp.isCompareStep], by cases s <;> simp, by simp, by simp⟩
    exact order.ordered

theorem AuxiliaryPath.ordered {m : Mode} {s : SubChannel} {code : Code} {p : List MicroOp}
    (h : AuxiliaryPath m s code p) : CompareOrdered p := by
  cases h with
  | on | off => exact compareOrdered_of_plain (by simp [MicroOp.isCompareStep, clearProgram])
  | highZero | lowZero | duty =>
    refine ConfiguresFirst.ordered (s := s) ⟨by simp [MicroOp.isCompareStep, clearProgram], ?_, by simp, ?_⟩
    · cases s <;> simp
    · cases s <;> simp [exists_or]

/-- INIT's CONFIGs enable nothing. -/
theorem initProgram_plain (m : Mode) : ∀ op ∈ initProgram m, op.isCompareStep = false := by
  cases m <;> simp [initProgram, syncProgram, fourChannel, MicroOp.isCompareStep]

theorem uprog_ordered (i : Instr) (m : Mode) : CompareOrdered (uprog i m) := by
  cases i with
  | nop | encode _ | ishighAux1 _ | ishighPri _ | ishighAux2 _ =>
    exact compareOrdered_of_plain (by simp [uprog, MicroOp.isCompareStep])
  | initTwo | initFour | initRev => exact compareOrdered_of_plain (initProgram_plain _)
  | write ch code =>
    have path := writeProgram_path m ch code
    rw [uprog]
    generalize writeProgram m ch code = p at path ⊢
    cases path with
    | invalid => exact compareOrdered_of_plain (by simp)
    | primary _ path => exact path.ordered
    | auxiliary _ _ path => exact path.ordered

/-- Settles O32: every path of WRITE configures its timers first; no other command has such steps. -/
theorem configurationPrecedesCompareWrites : Obligations.ConfigurationPrecedesCompareWrites :=
  uprog_ordered

/-! ## The compare values (R332) -/

/-- A WRITE_OCR in a micro-program is a WRITE's. -/
theorem write_of_mem_writeOcr {i : Instr} {m : Mode} {t : Timer} {s : SubChannel} {v : BitVec 16}
    (h : .writeOcr t s v ∈ uprog i m) : ∃ ch code, i = .write ch code := by
  cases i with
  | write ch code => exact ⟨ch, code, rfl⟩
  | nop | encode _ | ishighAux1 _ | ishighPri _ | ishighAux2 _ => simp [uprog] at h
  | initTwo | initFour | initRev => simp [uprog, initProgram, syncProgram, fourChannel] at h

/-- A compare value of an auxiliary timer is a non-zero byte less 1. -/
theorem byte_sub_one_le {byte : Byte} (h : byte ≠ 0#8) : ((byte - 1#8).setWidth 16).toNat ≤ 0xFE := by
  have hpos : byte.toNat ≠ 0 := fun e => h (BitVec.eq_of_toNat_eq e)
  have hlt := byte.isLt
  simp [BitVec.toNat_sub]
  omega

theorem PrimaryPath.compareValue {s s' : SubChannel} {code : Code} {p : List MicroOp} {t : Timer} {v : BitVec 16}
    (h : PrimaryPath s code p) (hmem : .writeOcr t s' v ∈ p) :
    t = .pri ∧ v = code ∧ code ≠ 0xFFFF#16 ∧ code ≠ 0x0000#16 := by
  cases h with
  | on | off => simp at hmem
  | duty hon hoff =>
    have : t = .pri ∧ s' = s ∧ v = code := by simpa using hmem
    exact ⟨this.1, this.2.2, hon, hoff⟩

theorem AuxiliaryPath.compareValue {m : Mode} {s s' : SubChannel} {code : Code} {p : List MicroOp} {t : Timer}
    {v : BitVec 16} (h : AuxiliaryPath m s code p) (hmem : .writeOcr t s' v ∈ p) : t ≠ .pri ∧ v.toNat ≤ 0xFE := by
  cases h with
  | on | off => simp [clearProgram] at hmem
  | highZero _ _ _ hlow =>
    obtain ⟨rfl, -, rfl⟩ : t = timerLow m ∧ s' = s ∧ v = _ := by simpa [clearProgram] using hmem
    exact ⟨timerLow_ne_pri m, byte_sub_one_le hlow⟩
  | lowZero _ _ hhigh _ =>
    obtain ⟨rfl, -, rfl⟩ : t = timerHigh m ∧ s' = s ∧ v = _ := by simpa [clearProgram] using hmem
    exact ⟨timerHigh_ne_pri m, byte_sub_one_le hhigh⟩
  | duty _ _ hhigh hlow =>
    have hmem : MicroOp.writeOcr t s' v = .writeOcr (timerHigh m) s (((encodeDuty code).high - 1#8).setWidth 16) ∨
        MicroOp.writeOcr t s' v = .writeOcr (timerLow m) s (((encodeDuty code).low - 1#8).setWidth 16) := by
      simpa using hmem
    rcases hmem with e | e <;> cases e
    · exact ⟨timerHigh_ne_pri m, byte_sub_one_le hhigh⟩
    · exact ⟨timerLow_ne_pri m, byte_sub_one_le hlow⟩

/-- Settles O33: PRI gets an unflagged code itself, an auxiliary timer a non-zero byte less 1. -/
theorem compareValuesLieInTheirRanges : Obligations.CompareValuesLieInTheirRanges := by
  intro i m t s v h
  obtain ⟨ch, code, rfl⟩ := write_of_mem_writeOcr h
  have path := writeProgram_path m ch code
  rw [uprog] at h
  generalize writeProgram m ch code = p at path h
  cases path with
  | invalid => simp at h
  | primary _ path =>
    obtain ⟨rfl, rfl, hon, hoff⟩ := path.compareValue h
    refine ⟨fun hne => absurd rfl hne, fun _ => ?_⟩
    have hon : v.toNat ≠ 0xFFFF := fun e => hon (BitVec.eq_of_toNat_eq e)
    have hoff : v.toNat ≠ 0 := fun e => hoff (BitVec.eq_of_toNat_eq e)
    have hlt := v.isLt
    omega
  | auxiliary _ _ path =>
    obtain ⟨hne, hle⟩ := path.compareValue h
    exact ⟨fun _ => hle, fun e => absurd e hne⟩

/-! ## The latch clear (R365) -/

/-- SAVE_COM, which stands in the latch clear alone (R366). -/
def MicroOp.isSaveCom : MicroOp → Bool
  | .saveCom _ => true
  | _ => false

theorem PrimaryPath.saveComs {s : SubChannel} {code : Code} {p : List MicroOp} (h : PrimaryPath s code p) :
    p.countP MicroOp.isSaveCom = 0 := by
  cases h <;> simp [MicroOp.isSaveCom]

theorem AuxiliaryPath.saveComs {m : Mode} {s : SubChannel} {code : Code} {p : List MicroOp}
    (h : AuxiliaryPath m s code p) : p.countP MicroOp.isSaveCom =
      if code ≠ 0xFFFF#16 ∧ ((encodeDuty code).high = 0#8 ∨ (encodeDuty code).low = 0#8) then 1 else 0 := by
  cases h with
  | on h => subst h; rfl
  | off h => subst h; rfl
  | highZero hon _ hhigh _ => simp [hon, hhigh, clearProgram, List.countP_cons, MicroOp.isSaveCom]
  | lowZero hon _ _ hlow => simp [hon, hlow, clearProgram, List.countP_cons, MicroOp.isSaveCom]
  | duty hon _ hhigh hlow => simp [hhigh, hlow, MicroOp.isSaveCom]

theorem writeProgram_saveComs (m : Mode) (ch : Channel) (code : Code) :
    (writeProgram m ch code).countP MicroOp.isSaveCom =
      if validChannel m ch = true ∧ primaryRouted ch = false ∧ code ≠ 0xFFFF#16 ∧
        ((encodeDuty code).high = 0#8 ∨ (encodeDuty code).low = 0#8) then 1 else 0 := by
  have path := writeProgram_path m ch code
  generalize writeProgram m ch code = p at path
  cases path with
  | invalid h => simp [h]
  | primary h path => simp [h, path.saveComs]
  | auxiliary h hm path => simp [validChannel, h, hm, path.saveComs]

/-- Settles O37: SAVE_COM is counted path by path. -/
theorem latchClearRunsOnItsTwoPathsOnly : Obligations.LatchClearRunsOnItsTwoPathsOnly := by
  intro i m
  change (uprog i m).countP MicroOp.isSaveCom = _
  cases i with
  | write ch code => exact writeProgram_saveComs m ch code
  | nop | encode _ | ishighAux1 _ | ishighPri _ | ishighAux2 _ => rfl
  | initTwo | initFour | initRev => rfl

/-! ## The pins a WRITE acts on (R433, R435) -/

/-- The micro-operation acts on pins of `P` alone: it writes their DIR, LVL, COM or OCR, or their timer's control. -/
def MicroOp.actsOn (P : Pin → Prop) : MicroOp → Prop
  | .setDir p | .static p _ | .setLvl p _ | .saveCom p | .restoreCom p => P p
  | .config t enA enB => (enA = true → P (pin t .a)) ∧ (enB = true → P (pin t .b))
  | .writeOcr t s _ => P (pin t s)
  | _ => False

/-- A pin's own registers: the COM and OCR of its sub-channel, its DIR and its LVL. -/
def Block.samePin (b b' : Block) (p : Pin) : Prop :=
  b'.com (tmr p) (subch p) = b.com (tmr p) (subch p) ∧ b'.ocr (tmr p) (subch p) = b.ocr (tmr p) (subch p) ∧
    pinBit b'.dir p = pinBit b.dir p ∧ pinBit b'.lvl p = pinBit b.lvl p

theorem pin_eq_iff (p q : Pin) : (tmr p = tmr q ∧ subch p = subch q) ↔ p = q := by
  rw [← pin_inj, pin_tmr_subch, pin_tmr_subch]

/-- A pin that a micro-operation does not act on keeps its registers. -/
theorem perform_samePin {P : Pin → Prop} {op : MicroOp} (hop : op.actsOn P) {p : Pin} (hp : ¬ P p) (b : Block) :
    b.samePin (b.perform op) p := by
  have hne : ∀ q, P q → p ≠ q := fun q hq e => hp (e ▸ hq)
  have hsub : ∀ q, P q → ¬ (tmr p = tmr q ∧ subch p = subch q) := fun q hq e => hne q hq ((pin_eq_iff p q).mp e)
  cases op with
  | setDir q => simp [Block.samePin, hne q hop]
  | static q v => simp [Block.samePin, hne q hop, hsub q hop]
  | setLvl q v => simp [Block.samePin, hne q hop]
  | saveCom q => simp [Block.samePin]
  | restoreCom q => simp [Block.samePin, hsub q hop]
  | writeOcr t s v =>
    have : ¬ (tmr p = t ∧ subch p = s) := by simpa using hsub _ hop
    simp [Block.samePin, ocr_setOcr, this]
  | config t enA enB =>
    obtain ⟨hA, hB⟩ := hop
    have hen : ¬ (tmr p = t ∧ (if subch p = .a then enA else enB) = true) := by
      rintro ⟨rfl, hen⟩
      cases hs : subch p with
      | a => exact hp (by simpa [← hs] using hA (by simpa [hs] using hen))
      | b => exact hp (by simpa [← hs] using hB (by simpa [hs] using hen))
    refine ⟨?_, by simp, by simp, by simp⟩
    rw [perform_config, com_opConfig, if_neg hen]
  | _ => exact absurd hop id

theorem PrimaryPath.actsOn {s : SubChannel} {code : Code} {p : List MicroOp} (h : PrimaryPath s code p) {op : MicroOp}
    (hmem : op ∈ p) : op.actsOn (· = pin .pri s) := by
  revert op
  cases h with
  | on | off => simp [MicroOp.actsOn]
  | duty => cases s <;> simp [MicroOp.actsOn]

theorem AuxiliaryPath.actsOn {m : Mode} {s : SubChannel} {code : Code} {p : List MicroOp}
    (h : AuxiliaryPath m s code p) {op : MicroOp} (hmem : op ∈ p) :
    op.actsOn fun p => p = pin (timerHigh m) s ∨ p = pin (timerLow m) s := by
  revert op
  cases h with
  | on | off => simp [MicroOp.actsOn, clearProgram]
  | highZero | lowZero | duty => cases s <;> simp [MicroOp.actsOn, clearProgram]

/-- A WRITE acts on the two pins of its channel alone (R433). -/
theorem writeProgram_actsOn {m : Mode} {ch : Channel} {code : Code} {op : MicroOp}
    (hmem : op ∈ writeProgram m ch code) : op.actsOn fun p => p = pinHigh m ch ∨ p = pinLow m ch := by
  have path := writeProgram_path m ch code
  generalize writeProgram m ch code = p at path hmem
  cases path with
  | invalid => simp at hmem
  | primary h path => simpa [pinHigh, pinLow, h] using path.actsOn hmem
  | auxiliary h hm path => simpa [pinHigh, pinLow, h] using path.actsOn hmem

/-- No two channels share a pin in a mode: the table of R42, row by row. -/
theorem pins_disjoint {ch ch' : Channel} (h : ch' ≠ ch) (m : Mode) {p : Pin}
    (hp : p = pinHigh m ch' ∨ p = pinLow m ch') : ¬ (p = pinHigh m ch ∨ p = pinLow m ch) := by
  revert h p
  cases m <;> cases ch <;> cases ch' <;> decide

/-! ## What a WRITE leaves of the timers' control (R433) -/

/-- A WRITE's CONFIGs are of PRI, or of auxiliary timers in a four-channel mode. -/
theorem config_mem_writeProgram {m : Mode} {ch : Channel} {code : Code} {t : Timer} {enA enB : Bool}
    (hmem : .config t enA enB ∈ writeProgram m ch code) : t = .pri ∨ fourChannel m = true := by
  have path := writeProgram_path m ch code
  generalize writeProgram m ch code = p at path hmem
  cases path with
  | invalid => simp at hmem
  | primary _ path =>
    cases path with
    | on | off => simp at hmem
    | duty =>
      simp only [List.mem_cons, reduceCtorEq, MicroOp.config.injEq, List.not_mem_nil, or_false, false_or] at hmem
      exact .inl hmem.1
  | auxiliary _ hm => exact .inr hm

/-- CONFIG alone writes WGM, CS and TOP (R281). -/
theorem perform_control {op : MicroOp} (h : ∀ t enA enB, op ≠ .config t enA enB) (b : Block) :
    (b.perform op).priTop = b.priTop ∧ ∀ t, (b.perform op).cs t = b.cs t ∧ (b.perform op).wgm t = b.wgm t := by
  cases op with
  | config t enA enB => exact absurd rfl (h t enA enB)
  | syncClear | setMode _ | syncHalt | syncRelease | initFinish | encStore _ | qhiStore _ _ =>
    exact ⟨rfl, fun t => by cases t <;> exact ⟨rfl, rfl⟩⟩
  | writeOcr _ _ _ | setDir _ | static _ _ | setLvl _ _ | saveCom _ | restoreCom _ => simp

/-- CONFIG of a timer that holds its configuration writes the same again. -/
theorem opConfig_control_of_synced {b : Block} (h : b.timersSynced) {t : Timer}
    (ht : t = .pri ∨ fourChannel b.mode = true) (enA enB : Bool) :
    (b.opConfig t enA enB).priTop = b.priTop ∧
      ∀ t', (b.opConfig t enA enB).cs t' = b.cs t' ∧ (b.opConfig t enA enB).wgm t' = b.wgm t' := by
  obtain ⟨⟨hwgm, hcs, htop⟩, hrest⟩ := h
  have hsame : b.cs t = selectOf b.mode t ∧ b.wgm t = waveformOf t := by
    cases t with
    | pri => exact ⟨hcs, hwgm⟩
    | aux1 =>
      rw [if_pos (by simpa using ht)] at hrest
      exact ⟨hrest.1.2, hrest.1.1⟩
    | aux2 =>
      rw [if_pos (by simpa using ht)] at hrest
      exact ⟨hrest.2.1.2, hrest.2.1.1⟩
  obtain ⟨hcs', hwgm'⟩ := hsame
  refine ⟨?_, fun t' => ⟨?_, ?_⟩⟩
  · rw [priTop_opConfig, htop, ite_self]
  · rw [cs_opConfig]
    split
    · next e => rw [e, hcs']
    · rfl
  · rw [wgm_opConfig]
    split
    · next e => rw [e, hwgm']
    · rfl

/-- With the timers as INIT left them, no WRITE changes a WGM, a CS or TOP. -/
theorem writeProgram_control {b : Block} (h : b.timersSynced) {ch : Channel} {code : Code} {op : MicroOp}
    (hmem : op ∈ writeProgram b.mode ch code) :
    (b.perform op).priTop = b.priTop ∧ ∀ t, (b.perform op).cs t = b.cs t ∧ (b.perform op).wgm t = b.wgm t := by
  by_cases hop : ∃ t enA enB, op = .config t enA enB
  · obtain ⟨t, enA, enB, rfl⟩ := hop
    exact opConfig_control_of_synced h (config_mem_writeProgram hmem) enA enB
  · exact perform_control (fun t enA enB e => hop ⟨t, enA, enB, e⟩) b

/-- Settles O34: a WRITE's micro-operations act on its own pins, none is SYNC_CLEAR, and its CONFIGs repeat INIT's. -/
theorem writesDoNotDisturbOtherChannels : Obligations.WritesDoNotDisturbOtherChannels := by
  intro b ch ch' code op hne hmem
  rw [uprog] at hmem
  obtain ⟨-, -, hclear, -⟩ := mem_writeProgram hmem
  exact ⟨fun p hp => perform_samePin (writeProgram_actsOn hmem) (pins_disjoint hne b.mode hp) b,
    fun t => ⟨perform_cnt b op hclear t, perform_psc b op hclear t⟩, fun h => writeProgram_control h hmem⟩

end Sys2Proof.Machine
end

section
/-! PROOFS. The sequencer invariant of R32: every step keeps it, and under it the sequencer always finds its
micro-operation. -/

namespace Sys2Proof.Machine

/-- R32 speaks of CMDREG, UPC, BUSY and MODE alone. -/
theorem sequencerOk_congr {b c : Block} (hcmd : c.cmdreg = b.cmdreg) (hupc : c.upc = b.upc) (hbusy : c.busy = b.busy)
    (hmode : c.mode = b.mode) (h : b.sequencerOk) : c.sequencerOk := by
  unfold Block.sequencerOk at h ⊢
  rw [hcmd, hupc, hbusy, hmode]
  exact h

theorem sequencerOk_reset : Block.reset.sequencerOk := ⟨.nop, rfl, Nat.le_refl 0, by decide⟩

/-- An accepted command starts at UPC = 0, busy unless it has no micro-operations (R162). -/
theorem sequencerOk_accept (b : Block) (i : Instr) : (b.accept (encode i) (uprog i b.mode)).sequencerOk :=
  ⟨i, decode_encode i, Nat.zero_le _, by simp [busyAfterAccept]⟩

theorem upc_lt_length {b : Block} {i : Instr} {op : MicroOp} (hop : (uprog i b.mode)[b.upc.toNat]? = some op) :
    b.upc.toNat < (uprog i b.mode).length := (List.getElem?_eq_some_iff.mp hop).1

/-- UPC does not wrap: it moves on by one (R31, R163). -/
theorem afterOp_upc_toNat {b : Block} {i : Instr} {op : MicroOp} (hop : (uprog i b.mode)[b.upc.toNat]? = some op)
    (n : Nat) : (b.afterOp op n).upc.toNat = b.upc.toNat + 1 := by
  have hlt := upc_lt_length hop
  have h16 := uprog_length_lt i b.mode
  rw [afterOp_upc, BitVec.toNat_ofNat]
  omega

/-- BUSY after a micro-operation tells whether it was the last. -/
theorem afterOp_busy_iff {b : Block} {i : Instr} {op : MicroOp} (hbusy : b.busy = true)
    (hop : (uprog i b.mode)[b.upc.toNat]? = some op) :
    (b.afterOp op (uprog i b.mode).length).busy = true ↔ b.upc.toNat + 1 < (uprog i b.mode).length := by
  have hlt := upc_lt_length hop
  rw [afterOp_busy, busyAfterStep, hbusy]
  split
  · next h => simp [h]
  · simp; omega

/-- The command in progress keeps its micro-program, and UPC moves on in it (R163). -/
theorem sequencerOk_afterOp {b : Block} {i : Instr} {op : MicroOp} (hbusy : b.busy = true)
    (hcmd : decode b.cmdreg = .command i) (hop : (uprog i b.mode)[b.upc.toNat]? = some op) :
    (b.afterOp op (uprog i b.mode).length).sequencerOk := by
  have hprog : uprog i (b.afterOp op (uprog i b.mode).length).mode = uprog i b.mode :=
    uprog_perform (List.mem_of_getElem? hop) b rfl
  refine ⟨i, by simpa using hcmd, ?_, ?_⟩
  · rw [hprog, afterOp_upc_toNat hop]
    exact upc_lt_length hop
  · rw [hprog, afterOp_upc_toNat hop]
    exact afterOp_busy_iff hbusy hop

theorem BlockStep.sequencerOk {turn : Turn} {b c : Block} (hstep : BlockStep turn b c) (h : b.sequencerOk) :
    c.sequencerOk := by
  cases hstep with
  | same => exact h
  | tick => exact sequencerOk_congr (tick_cmdreg b) (tick_upc b) (tick_busy b) (tick_mode b) h
  | reset => exact sequencerOk_reset
  | fault => exact sequencerOk_congr rfl rfl rfl rfl h
  | accept w i => exact sequencerOk_accept b i
  | op i o hturn hbusy hcmd hop => exact sequencerOk_afterOp hbusy hcmd hop

/-- Settles O51: by what a step may make of the block. -/
theorem everyStepKeepsTheSequencerInvariant : Obligations.EveryStepKeepsTheSequencerInvariant := by
  intro s t h hstep
  obtain ⟨turn, hb⟩ := step_next_block hstep
  exact hb.sequencerOk h

/-! ## No fault of the model -/

/-- Under R32 the command CMDREG holds has a micro-operation at UPC while BUSY = 1. -/
theorem sequencerOk_finds {b : Block} (h : b.sequencerOk) (hbusy : b.busy = true) :
    ∃ i op, decode b.cmdreg = .command i ∧ (uprog i b.mode)[b.upc.toNat]? = some op := by
  obtain ⟨i, hcmd, -, hiff⟩ := h
  exact ⟨i, _, hcmd, List.getElem?_eq_getElem (hiff.mp hbusy)⟩

theorem sequencerStep_ne_fault {p : List MicroOp} {s : State} (h : s.block.busy = true → ∃ op, p[s.block.upc.toNat]? = some op)
    (r : Fault) : sequencerStep p s ≠ .fault r := by
  unfold sequencerStep
  split
  · next hbusy =>
    obtain ⟨op, hop⟩ := h hbusy
    simp [hop]
  · exact nofun

theorem hostTurn_ne_fault (x : Access) (s : State) (r : Fault) : hostTurn x s ≠ .fault r := by
  unfold hostTurn
  split
  · cases x with
    | read size off => exact nofun
    | write size off v => dsimp only; split <;> exact nofun
  · exact nofun

/-- A step at a settled turn of a state that meets R32 does not fault. -/
theorem step_ne_fault_of_cons {s : State} {turn : Turn} {rest : List Turn} (hs : s.sched = turn :: rest)
    (h : s.block.sequencerOk) (r : Fault) : step s ≠ .fault r := by
  rw [step_of_cons hs]
  cases turn with
  | host x =>
    cases hf : fetch s with
    | none => simpa [agentTurn, hs] using hostTurn_ne_fault x s r
    | some i => simp [exec_eq_transition, transition, hs]
  | sequencer =>
    cases hbusy : s.block.busy with
    | true =>
      obtain ⟨i, op, hcmd, hop⟩ := sequencerOk_finds h hbusy
      have hf : fetch s = some i := by simp [fetch, hs, hbusy, commandOf_some.mpr hcmd]
      rw [hf]
      simp only [exec_eq_transition, transition_sequencer hs]
      exact sequencerStep_ne_fault (fun _ => ⟨op, hop⟩) r
    | false =>
      have hf : fetch s = none := by simp [fetch, hs, hbusy]
      simp [hf, agentTurn, hs, idleSequencer, hbusy]
  | tick | reset => simp [fetch, agentTurn, hs]

/-- A step with no turn settled is the step with SCHED's choice settled. -/
theorem step_scheduled (s : State) : step s.scheduled = step s := by
  obtain ⟨turn, rest, hs⟩ := scheduled_cons s
  simp only [step, scheduled_of_cons hs]

/-- Settles O52: under R32 every sequencer's turn finds its micro-operation or passes. -/
theorem noFaultWhileTheSequencerInvariantHolds : Obligations.NoFaultWhileTheSequencerInvariantHolds := by
  intro s r h
  obtain ⟨turn, rest, hs⟩ := scheduled_cons s
  rw [← step_scheduled]
  exact step_ne_fault_of_cons hs (by simpa using h) r

end Sys2Proof.Machine
end

section
/-! PROOFS. The boot invariant: where the block stands with respect to INIT, and that every step keeps it (R222, R225 to
R231, R424, R433). -/

namespace Sys2Proof.Machine

/-! ## The stages -/

theorem initStage_unset {b : Block} (h : b.mode = .unset) : b.initStage ↔ b.beforeInit := by
  simp [Block.initStage, h]

theorem initStage_done {b : Block} (h : b.mode ≠ .unset) (hd : b.initDone = true) : b.initStage ↔ b.afterInit := by
  simp [Block.initStage, h, hd]

theorem initStage_during {b : Block} (h : b.mode ≠ .unset) (hd : b.initDone = false) :
    b.initStage ↔ b.duringInit := by
  simp [Block.initStage, h, hd]

/-- What INIT has made of the auxiliary timers once `u` of its micro-operations are performed. -/
def Block.auxReached (b : Block) (u : Nat) : Prop :=
  if fourChannel b.mode then (3 ≤ u → b.auxConfigured .aux1) ∧ (4 ≤ u → b.auxConfigured .aux2)
  else b.auxStopped .aux1 ∧ b.auxStopped .aux2

/-- What INIT of a mode has done once `u` of its `n` micro-operations are performed. -/
structure Block.initReached (b : Block) (u n : Nat) : Prop where
  pri : 2 ≤ u → b.priConfigured
  aux : b.auxReached u
  halt_iff : b.halt = true ↔ u + 3 = n ∨ u + 2 = n
  psrst_eq : b.psrst = b.halt
  zero : u + 2 = n → b.countsZero
  synced : u + 1 = n → b.timersSynced

/-- `duringInit` in terms of INIT's progress. -/
theorem duringInit_iff (b : Block) : b.duringInit ↔
    ∃ i, initCommand b.mode = some i ∧ b.running i ∧ b.initDone = false ∧ b.dir = 0#6 ∧ b.lvl = 0#6 ∧
      1 ≤ b.upc.toNat ∧ b.initReached b.upc.toNat (uprog i b.mode).length := by
  constructor
  · rintro ⟨i, hi, hrun, hdone, hdir, hlvl, hupc, hpri, haux, hhalt, hpsrst, hzero, hsynced⟩
    exact ⟨i, hi, hrun, hdone, hdir, hlvl, hupc, hpri, haux, hhalt, hpsrst, hzero, hsynced⟩
  · rintro ⟨i, hi, hrun, hdone, hdir, hlvl, hupc, hpri, haux, hhalt, hpsrst, hzero, hsynced⟩
    exact ⟨i, hi, hrun, hdone, hdir, hlvl, hupc, hpri, haux, hhalt, hpsrst, hzero, hsynced⟩

/-! ## INIT and its micro-program -/

/-- An INIT sets a mode other than UNSET, and its micro-program is that mode's in every mode (R221, R222). -/
theorem isInit_iff (i : Instr) : i.isInit = true ↔ ∃ m, initCommand m = some i := by
  constructor
  · intro h
    cases i with
    | initTwo => exact ⟨.two, rfl⟩
    | initFour => exact ⟨.four, rfl⟩
    | initRev => exact ⟨.rev, rfl⟩
    | nop | write _ _ | encode _ | ishighAux1 _ | ishighPri _ | ishighAux2 _ => simp [Instr.isInit] at h
  · rintro ⟨m, h⟩
    cases m <;> cases h <;> rfl

theorem uprog_initCommand {i : Instr} {m : Mode} (h : initCommand m = some i) (m' : Mode) :
    uprog i m' = initProgram m := by
  cases m <;> cases h <;> rfl

theorem initCommand_ne_unset {i : Instr} {m : Mode} (h : initCommand m = some i) : m ≠ .unset := by
  rintro rfl
  cases h

/-- INIT has eight micro-operations in a four-channel mode and six in mode TWO (R167). -/
theorem initProgram_length (m : Mode) : (initProgram m).length = if fourChannel m then 8 else 6 := by
  cases m <;> rfl

/-- The micro-operations of INIT by their place: the mode, the CONFIGs from the start, the synchronizer and INIT_FINISH
from the end (R222). -/
inductive InitPlace (m : Mode) (u n : Nat) : MicroOp → Prop
  | setMode (h : u = 0) : InitPlace m u n (.setMode m)
  | configPri (h : u = 1) : InitPlace m u n (.config .pri false false)
  | configAux1 (hm : fourChannel m = true) (h : u = 2) : InitPlace m u n (.config .aux1 false false)
  | configAux2 (hm : fourChannel m = true) (h : u = 3) : InitPlace m u n (.config .aux2 false false)
  | syncHalt (h : u + 4 = n) : InitPlace m u n .syncHalt
  | syncClear (h : u + 3 = n) : InitPlace m u n .syncClear
  | syncRelease (h : u + 2 = n) : InitPlace m u n .syncRelease
  | initFinish (h : u + 1 = n) : InitPlace m u n .initFinish

theorem initProgram_place {m : Mode} {u : Nat} {op : MicroOp} (h : (initProgram m)[u]? = some op) :
    InitPlace m u (initProgram m).length op := by
  cases hm : fourChannel m with
  | true =>
    have hprog : initProgram m = [.setMode m, .config .pri false false, .config .aux1 false false,
        .config .aux2 false false, .syncHalt, .syncClear, .syncRelease, .initFinish] := by
      simp [initProgram, syncProgram, hm]
    rw [hprog] at h ⊢
    match u, h with
    | 0, h => cases h; exact .setMode rfl
    | 1, h => cases h; exact .configPri rfl
    | 2, h => cases h; exact .configAux1 hm rfl
    | 3, h => cases h; exact .configAux2 hm rfl
    | 4, h => cases h; exact .syncHalt rfl
    | 5, h => cases h; exact .syncClear rfl
    | 6, h => cases h; exact .syncRelease rfl
    | 7, h => cases h; exact .initFinish rfl
  | false =>
    have hprog : initProgram m = [.setMode m, .config .pri false false, .syncHalt, .syncClear, .syncRelease,
        .initFinish] := by
      simp [initProgram, syncProgram, hm]
    rw [hprog] at h ⊢
    match u, h with
    | 0, h => cases h; exact .setMode rfl
    | 1, h => cases h; exact .configPri rfl
    | 2, h => cases h; exact .syncHalt rfl
    | 3, h => cases h; exact .syncClear rfl
    | 4, h => cases h; exact .syncRelease rfl
    | 5, h => cases h; exact .initFinish rfl

/-! ## INIT's progress -/

/-- Once every counter is 0 under configured timers, they are synchronized (R185, R230). -/
theorem timersSynced_of_countsZero {b : Block} (hpri : b.priConfigured)
    (haux : if fourChannel b.mode then b.auxConfigured .aux1 ∧ b.auxConfigured .aux2
      else b.auxStopped .aux1 ∧ b.auxStopped .aux2) (hzero : b.countsZero) : b.timersSynced := by
  refine ⟨hpri, ?_⟩
  split at haux
  · next hm =>
    rw [if_pos hm]
    exact ⟨haux.1, haux.2, phaseLocked_of_countsZero hzero⟩
  · next hm =>
    rw [if_neg hm]
    exact ⟨(hzero .pri).2, haux.1, haux.2⟩

theorem auxReached_next {b c : Block} {u : Nat} (hmode : c.mode = b.mode)
    (hconf : ∀ t, t ≠ .pri → b.auxConfigured t → c.auxConfigured t)
    (hstop : fourChannel b.mode = false → ∀ t, t ≠ .pri → b.auxStopped t → c.auxStopped t)
    (h1 : u = 2 → fourChannel b.mode = true → c.auxConfigured .aux1)
    (h2 : u = 3 → fourChannel b.mode = true → c.auxConfigured .aux2) (h : b.auxReached u) : c.auxReached (u + 1) := by
  unfold Block.auxReached at h ⊢
  rw [hmode]
  split at h
  · next hm =>
    rw [if_pos hm]
    refine ⟨fun hu => ?_, fun hu => ?_⟩
    · by_cases e : u = 2
      · exact h1 e hm
      · exact hconf _ (by decide) (h.1 (by omega))
    · by_cases e : u = 3
      · exact h2 e hm
      · exact hconf _ (by decide) (h.2 (by omega))
  · next hm =>
    rw [if_neg hm]
    exact ⟨hstop (by simpa using hm) _ (by decide) h.1, hstop (by simpa using hm) _ (by decide) h.2⟩

theorem priConfigured_opConfig_pri (b : Block) (x y : Bool) : (b.opConfig .pri x y).priConfigured := ⟨rfl, rfl, rfl⟩

theorem priConfigured_opConfig {b : Block} (h : b.priConfigured) (t : Timer) (x y : Bool) :
    (b.opConfig t x y).priConfigured := by
  cases t with
  | pri => exact priConfigured_opConfig_pri b x y
  | aux1 | aux2 => exact h

theorem auxConfigured_opConfig_self (b : Block) {t : Timer} (ht : t ≠ .pri) (x y : Bool) :
    (b.opConfig t x y).auxConfigured t := by
  cases t with
  | pri => exact absurd rfl ht
  | aux1 | aux2 => exact ⟨rfl, rfl⟩

theorem auxConfigured_opConfig {b : Block} {t' : Timer} (ht' : t' ≠ .pri) (h : b.auxConfigured t') (t : Timer)
    (x y : Bool) : (b.opConfig t x y).auxConfigured t' := by
  by_cases e : t' = t
  · subst e
    exact auxConfigured_opConfig_self b ht' x y
  · obtain ⟨hwgm, hcs⟩ := h
    exact ⟨by rw [wgm_opConfig, if_neg e, hwgm], by rw [cs_opConfig, if_neg e, opConfig_mode, hcs]⟩

/-- A CONFIG of INIT keeps its progress, SYNCCTL untouched before the synchronizer starts. -/
theorem initReached_config {b : Block} {u n : Nat} {t : Timer} (h : b.initReached u n) (hu : u + 4 < n)
    (hpri : u = 1 → t = .pri) (h1 : u = 2 → fourChannel b.mode = true → t = .aux1)
    (h2 : u = 3 → fourChannel b.mode = true → t = .aux2) (hstop : fourChannel b.mode = false → t = .pri) :
    (b.opConfig t false false).initReached (u + 1) n where
  pri hu2 := by
    by_cases e : u = 1
    · rw [hpri e]
      exact priConfigured_opConfig_pri b _ _
    · exact priConfigured_opConfig (h.pri (by omega)) t _ _
  aux := by
    refine auxReached_next (opConfig_mode ..) (fun t' ht' hc => auxConfigured_opConfig ht' hc t _ _) ?_ ?_ ?_ h.aux
    · intro hm t' ht' hs
      rw [hstop hm]
      cases t' with
      | pri => exact absurd rfl ht'
      | aux1 | aux2 => exact hs
    · intro e hm
      rw [h1 e hm]
      exact auxConfigured_opConfig_self b (by decide) _ _
    · intro e hm
      rw [h2 e hm]
      exact auxConfigured_opConfig_self b (by decide) _ _
  halt_iff := by
    rw [opConfig_halt, h.halt_iff]
    omega
  psrst_eq := by rw [opConfig_halt, opConfig_psrst, h.psrst_eq]
  zero e := absurd e (by omega)
  synced e := absurd e (by omega)

/-- A micro-operation of the synchronizer leaves the timers' configuration alone. -/
theorem auxReached_sync {b c : Block} {u : Nat} (hmode : c.mode = b.mode) (hu : fourChannel b.mode = true → 4 ≤ u)
    (hwgm : ∀ t, c.wgm t = b.wgm t) (hcs : ∀ t, c.cs t = b.cs t)
    (hstop : ∀ t, b.auxStopped t → c.auxStopped t) (h : b.auxReached u) : c.auxReached (u + 1) := by
  refine auxReached_next hmode ?_ (fun _ t _ => hstop t) (fun e hm => ?_) (fun e hm => ?_) h
  · rintro t - ⟨hw, hc⟩
    exact ⟨by rw [hwgm, hw], by rw [hcs, hc, hmode]⟩
  · exact absurd (hu hm) (by omega)
  · exact absurd (hu hm) (by omega)

theorem auxStopped_withoutCounts {b : Block} {t : Timer} (h : b.auxStopped t) : b.withoutCounts.auxStopped t := by
  obtain ⟨hcnt, hpsc⟩ := countsZero_withoutCounts b t
  refine ⟨?_, hcnt, hpsc⟩
  have hcs : b.withoutCounts.cs t = b.cs t := by cases t <;> rfl
  rw [hcs]
  exact h.1

/-- Each micro-operation of INIT after SET_MODE takes its progress one further. -/
theorem initReached_perform {b : Block} {u n : Nat} {op : MicroOp} (hn : n = if fourChannel b.mode then 8 else 6)
    (hplace : InitPlace b.mode u n op) (hu : 1 ≤ u) (h : b.initReached u n) (hlast : u + 1 ≠ n) :
    (b.perform op).initReached (u + 1) n := by
  have hn6 : n = 6 ∨ n = 8 := by rw [hn]; split <;> simp
  have hfour : fourChannel b.mode = true → n = 8 := fun hm => by rw [hn, if_pos hm]
  cases hplace with
  | setMode e => omega
  | configPri e =>
    exact initReached_config h (by omega) (fun _ => rfl) (by omega) (by omega) fun _ => rfl
  | configAux1 hm e =>
    have := hfour hm
    exact initReached_config h (by omega) (by omega) (fun _ _ => rfl) (by omega) (by simp [hm])
  | configAux2 hm e =>
    have := hfour hm
    exact initReached_config h (by omega) (by omega) (by omega) (fun _ _ => rfl) (by simp [hm])
  | syncHalt e =>
    exact
      { pri := fun _ => h.pri (by omega)
        aux := auxReached_sync rfl (fun hm => by have := hfour hm; omega) (fun t => by cases t <;> rfl)
          (fun t => by cases t <;> rfl) (fun t hs => by cases t <;> exact hs) h.aux
        halt_iff := ⟨fun _ => by omega, fun _ => rfl⟩
        psrst_eq := rfl
        zero := fun e => by omega
        synced := fun e => by omega }
  | syncClear e =>
    exact
      { pri := fun _ => h.pri (by omega)
        aux := auxReached_sync (b := b) rfl (fun hm => by have := hfour hm; omega) (fun t => by cases t <;> rfl)
          (fun t => by cases t <;> rfl) (fun t hs => auxStopped_withoutCounts hs) h.aux
        halt_iff := ⟨fun _ => by omega, fun _ => h.halt_iff.mpr (by omega)⟩
        psrst_eq := h.psrst_eq
        zero := fun _ => countsZero_withoutCounts b
        synced := fun e => by omega }
  | syncRelease e =>
    have haux : (b.perform .syncRelease).auxReached (u + 1) :=
      auxReached_sync rfl (fun hm => by have := hfour hm; omega) (fun t => by cases t <;> rfl)
        (fun t => by cases t <;> rfl) (fun t hs => by cases t <;> exact hs) h.aux
    have hpri : (b.perform .syncRelease).priConfigured := h.pri (by omega)
    have hzero : (b.perform .syncRelease).countsZero := fun t => by
      have hz := h.zero e t
      cases t <;> exact hz
    exact
      { pri := fun _ => hpri
        aux := haux
        halt_iff := ⟨nofun, fun e => by omega⟩
        psrst_eq := rfl
        zero := fun e => by omega
        synced := fun _ => by
          refine timersSynced_of_countsZero hpri ?_ hzero
          unfold Block.auxReached at haux
          split at haux
          · next hm =>
            have := hfour hm
            rw [if_pos hm]
            exact ⟨haux.1 (by omega), haux.2 (by omega)⟩
          · next hm => rw [if_neg hm]; exact haux }
  | initFinish e => exact absurd e hlast

/-- INIT's progress is in the timers and SYNCCTL, not in the sequencer's own registers. -/
theorem Block.initReached.afterOp {b : Block} {op : MicroOp} {u n : Nat} (h : (b.perform op).initReached u n) (k : Nat) :
    (b.afterOp op k).initReached u n :=
  ⟨h.pri, h.aux, h.halt_iff, h.psrst_eq, h.zero, h.synced⟩

/-! ## Before INIT -/

theorem running_unique {b : Block} {i j : Instr} (hcmd : decode b.cmdreg = .command i) (h : b.running j) : j = i :=
  Decoded.command.inj (h.2.symm.trans hcmd)

/-- A reset timer stands still. -/
theorem tick_resetTimer (w : Nat) (x : Bool) (top : Option (BitVec w)) :
    (TimerRegs.reset w).tick x top = TimerRegs.reset w :=
  TimerRegs.tick_stopped (show 0#3 ≠ 1#3 by decide) (show 0#3 ≠ 2#3 by decide) x top

theorem beforeInit_tick {b : Block} (h : b.beforeInit) : b.tick.beforeInit := by
  obtain ⟨hdone, hhalt, hpsrst, h1, hp, h2, htop, hdir, hlvl, hinit, hwrite⟩ := h
  obtain ⟨h1', hp', h2'⟩ := tick_regs hhalt
  have hrun : ∀ i, b.tick.running i ↔ b.running i := fun i => by simp [Block.running]
  unfold Block.beforeInit
  simp only [tick_initDone, tick_halt, tick_psrst, tick_priTop, tick_dir, tick_lvl, tick_upc, h1', hp', h2', h1, hp, h2,
    tick_resetTimer, hrun]
  exact ⟨hdone, hhalt, hpsrst, trivial, trivial, trivial, htop, hdir, hlvl, hinit, hwrite⟩

/-- Of INIT only its first micro-operation is done before the mode is set. -/
theorem duringInit_of_setMode {b : Block} {i : Instr} {m : Mode} (h : b.beforeInit) (hm : initCommand m = some i)
    (hbusy : b.busy = true) (hcmd : decode b.cmdreg = .command i) (hupc : b.upc = 0#4) :
    (b.afterOp (.setMode m) (initProgram m).length).duringInit := by
  obtain ⟨hdone, hhalt, hpsrst, h1, hp, h2, htop, hdir, hlvl, -, -⟩ := h
  have hn : 6 ≤ (initProgram m).length := by rw [initProgram_length]; split <;> decide
  have hupc' : (b.afterOp (.setMode m) (initProgram m).length).upc.toNat = 1 := by rw [afterOp_upc, hupc]; rfl
  have hbusy' : (b.afterOp (.setMode m) (initProgram m).length).busy = true := by
    rw [afterOp_busy, hupc, hbusy, busyAfterStep, if_neg]
    simp only [BitVec.toNat_ofNat]
    omega
  rw [duringInit_iff]
  refine ⟨i, hm, ⟨hbusy', hcmd⟩, hdone, hdir, hlvl, by omega, ?_⟩
  rw [uprog_initCommand hm, hupc']
  exact
    { pri := fun e => by omega
      aux := by
        have hstop1 : (b.afterOp (.setMode m) (initProgram m).length).auxStopped .aux1 := by
          simp [Block.auxStopped, Block.cs, Block.cnt, Block.psc, h1, TimerRegs.reset, csNone]
        have hstop2 : (b.afterOp (.setMode m) (initProgram m).length).auxStopped .aux2 := by
          simp [Block.auxStopped, Block.cs, Block.cnt, Block.psc, h2, TimerRegs.reset, csNone]
        unfold Block.auxReached
        split
        · exact ⟨fun e => by omega, fun e => by omega⟩
        · exact ⟨hstop1, hstop2⟩
      halt_iff := ⟨fun e => absurd (hhalt.symm.trans e) (by decide), fun e => by omega⟩
      psrst_eq := hpsrst.trans hhalt.symm
      zero := fun e => by omega
      synced := fun e => by omega }

/-- The commands that may run before INIT besides INIT itself: ENCODE and ISHIGH, each a write to a result register. -/
theorem beforeInit_afterOp {b : Block} {i : Instr} {op : MicroOp} (h : b.beforeInit) (hbusy : b.busy = true)
    (hcmd : decode b.cmdreg = .command i) (hi : i.isInit = false) (hop : op ∈ uprog i b.mode) (n : Nat) :
    (b.afterOp op n).beforeInit := by
  obtain ⟨hdone, hhalt, hpsrst, h1, hp, h2, htop, hdir, hlvl, -, hwrite⟩ := h
  have hnot : ∀ ch code, i ≠ .write ch code := by
    rintro ch code rfl
    exact hwrite ch code ⟨hbusy, hcmd⟩
  have hresult : (∃ code, op = .encStore code) ∨ ∃ t half, op = .qhiStore t half := by
    cases i with
    | write ch code => exact absurd rfl (hnot ch code)
    | initTwo | initFour | initRev => cases hi
    | nop => simp [uprog] at hop
    | encode code => exact .inl ⟨code, by simpa [uprog] using hop⟩
    | ishighAux1 half | ishighPri half | ishighAux2 half => exact .inr ⟨_, half, by simpa [uprog] using hop⟩
  have hrun : ∀ j, (b.afterOp op n).running j → j = i := fun j hj => running_unique (by simpa using hcmd) hj
  refine ⟨?_, ?_, ?_, ?_, ?_, ?_, ?_, ?_, ?_, ?_, ?_⟩
  case refine_10 =>
    intro j hj hinit
    rw [hrun j hj, hi] at hinit
    cases hinit
  case refine_11 => exact fun ch code hj => hnot ch code (hrun _ hj).symm
  all_goals rcases hresult with ⟨code, rfl⟩ | ⟨t, half, rfl⟩ <;> assumption

/-! ## During INIT -/

theorem duringInit_tick {b : Block} (h : b.duringInit) : b.tick.duringInit := by
  cases hhalt : b.halt with
  | true => rw [tick_halted hhalt]; exact h
  | false =>
    rw [duringInit_iff] at h ⊢
    obtain ⟨i, hi, hrun, hdone, hdir, hlvl, hupc, hreached⟩ := h
    refine ⟨i, by simpa using hi, by simpa [Block.running] using hrun, by simpa using hdone, by simpa using hdir,
      by simpa using hlvl, by simpa using hupc, ?_⟩
    rw [tick_upc, tick_mode]
    have hpsrst : b.psrst = false := hreached.psrst_eq.trans hhalt
    exact
      { pri := fun hu => (priConfigured_tick b).mpr (hreached.pri hu)
        aux := by
          have haux := hreached.aux
          unfold Block.auxReached at haux ⊢
          rw [tick_mode]
          split at haux
          · next hm => rw [if_pos hm]; simpa using haux
          · next hm => rw [if_neg hm]; exact ⟨auxStopped_tick haux.1, auxStopped_tick haux.2⟩
        halt_iff := by rw [tick_halt]; exact hreached.halt_iff
        psrst_eq := by rw [tick_halt, tick_psrst]; exact hreached.psrst_eq
        zero := fun hu => by
          have := hreached.halt_iff.mpr (.inr hu)
          rw [hhalt] at this
          cases this
        synced := fun hu => timersSynced_tick hpsrst (hreached.synced hu) }

/-- INIT's next micro-operation: its progress goes on, or with INIT_FINISH it is complete. -/
theorem initStage_afterOp_during {b : Block} {i : Instr} {op : MicroOp} (hmode : b.mode ≠ .unset) (h : b.duringInit)
    (hcmd : decode b.cmdreg = .command i) (hop : (uprog i b.mode)[b.upc.toNat]? = some op) :
    (b.afterOp op (uprog i b.mode).length).initStage := by
  obtain ⟨j, hj, hrun, hdone, hdir, hlvl, hupc, hreached⟩ := (duringInit_iff b).mp h
  obtain rfl := running_unique hcmd hrun
  have hupc' := afterOp_upc_toNat hop (uprog j b.mode).length
  have hbusy' := afterOp_busy_iff hrun.1 hop
  have hlt := upc_lt_length hop
  rw [uprog_initCommand hj] at hop hreached hupc' hbusy' hlt ⊢
  have hplace := initProgram_place hop
  by_cases hlast : b.upc.toNat + 1 = (initProgram b.mode).length
  · have hn : (initProgram b.mode).length = 6 ∨ (initProgram b.mode).length = 8 := by
      rw [initProgram_length]; split <;> simp
    have hfinish : op = .initFinish := by
      cases hplace with
      | initFinish => rfl
      | configAux1 hm _ | configAux2 hm _ =>
        have : (initProgram b.mode).length = 8 := by rw [initProgram_length, if_pos hm]
        omega
      | setMode | configPri | syncHalt | syncClear | syncRelease => omega
    subst hfinish
    have hhalt : b.halt = false := by
      rw [Bool.eq_false_iff]
      intro e
      have := hreached.halt_iff.mp e
      omega
    refine (initStage_done (b := b.afterOp .initFinish _) hmode rfl).mpr
      ⟨rfl, hhalt, hreached.psrst_eq.trans hhalt, fun k hk => ?_, hreached.synced hlast⟩
    have := hbusy'.mp hk.1
    omega
  · have hnofinish : op ≠ .initFinish := by
      rintro rfl
      cases hplace with
      | initFinish e => exact hlast e
    have hnoset : ∀ m, op ≠ .setMode m := by
      rintro m rfl
      cases hplace with
      | setMode e => omega
    have hmode' : (b.afterOp op (initProgram b.mode).length).mode = b.mode := perform_mode b op hnoset
    have hpins : (b.perform op).dir = b.dir ∧ (b.perform op).lvl = b.lvl := by
      cases hplace with
      | setMode | configPri | configAux1 | configAux2 | syncHalt | syncClear | syncRelease | initFinish =>
        exact ⟨rfl, rfl⟩
    refine (initStage_during (b := b.afterOp op _) (by rw [hmode']; exact hmode) ((perform_initDone b op hnofinish).trans hdone)).mpr
      ((duringInit_iff _).mpr ⟨j, by rw [hmode', hj], ⟨hbusy'.mpr (by omega), by simpa using hcmd⟩,
        (perform_initDone b op hnofinish).trans hdone, hpins.1.trans hdir, hpins.2.trans hlvl, by omega, ?_⟩)
    rw [hmode', uprog_initCommand hj, hupc']
    exact (initReached_perform (initProgram_length _) hplace hupc hreached hlast).afterOp _

/-! ## After INIT -/

/-- `timersSynced` speaks of MODE, TOP and each timer's CS, WGM, CNT and PSC alone. -/
theorem timersSynced_congr {b c : Block} (hmode : c.mode = b.mode) (htop : c.priTop = b.priTop)
    (hcontrol : ∀ t, c.cs t = b.cs t ∧ c.wgm t = b.wgm t) (hcount : ∀ t, c.cnt t = b.cnt t ∧ c.psc t = b.psc t)
    (h : b.timersSynced) : c.timersSynced := by
  have hcs : ∀ t, c.cs t = b.cs t := fun t => (hcontrol t).1
  have hwgm : ∀ t, c.wgm t = b.wgm t := fun t => (hcontrol t).2
  have hcnt : ∀ t, c.cnt t = b.cnt t := fun t => (hcount t).1
  have hpsc : ∀ t, c.psc t = b.psc t := fun t => (hcount t).2
  unfold Block.timersSynced at h ⊢
  simpa only [priConfigured_iff, phaseLocked_iff, Block.auxConfigured, Block.auxStopped, hmode, htop, hcs, hwgm, hcnt,
    hpsc] using h

/-- A command other than INIT has none of INIT's micro-operations. -/
theorem mem_uprog_not_init {i : Instr} {m : Mode} {op : MicroOp} (hi : i.isInit = false) (h : op ∈ uprog i m) :
    op ≠ .syncHalt ∧ op ≠ .syncClear ∧ op ≠ .syncRelease ∧ op ≠ .initFinish := by
  cases i with
  | initTwo | initFour | initRev => cases hi
  | write ch code =>
    obtain ⟨-, hhalt, hclear, hrelease, hfinish, -⟩ := mem_writeProgram h
    exact ⟨hhalt, hclear, hrelease, hfinish⟩
  | nop => simp [uprog] at h
  | encode _ | ishighAux1 _ | ishighPri _ | ishighAux2 _ =>
    obtain rfl : op = _ := by simpa [uprog] using h
    exact ⟨nofun, nofun, nofun, nofun⟩

/-- SYNC_HALT and SYNC_RELEASE alone write SYNCCTL (R45). -/
theorem perform_syncctl {op : MicroOp} (hhalt : op ≠ .syncHalt) (hrelease : op ≠ .syncRelease) (b : Block) :
    (b.perform op).halt = b.halt ∧ (b.perform op).psrst = b.psrst := by
  cases op with
  | syncHalt => exact absurd rfl hhalt
  | syncRelease => exact absurd rfl hrelease
  | config t x y => simp
  | setMode _ | syncClear | initFinish | encStore _ | qhiStore _ _ => exact ⟨rfl, rfl⟩
  | writeOcr _ _ _ | setDir _ | static _ _ | setLvl _ _ | saveCom _ | restoreCom _ => simp

/-- A command other than INIT keeps synchronized timers synchronized (R433). -/
theorem timersSynced_perform {b : Block} {i : Instr} {op : MicroOp} (hi : i.isInit = false)
    (hop : op ∈ uprog i b.mode) (h : b.timersSynced) : (b.perform op).timersSynced := by
  obtain ⟨-, hclear, -, -⟩ := mem_uprog_not_init hi hop
  have hcontrol : (b.perform op).priTop = b.priTop ∧
      ∀ t, (b.perform op).cs t = b.cs t ∧ (b.perform op).wgm t = b.wgm t := by
    cases i with
    | write ch code => exact writeProgram_control h hop
    | initTwo | initFour | initRev => cases hi
    | nop => simp [uprog] at hop
    | encode _ | ishighAux1 _ | ishighPri _ | ishighAux2 _ =>
      obtain rfl : op = _ := by simpa [uprog] using hop
      exact perform_control (fun t x y e => by cases e) b
  exact timersSynced_congr (uprog_perform_mode hop hi b) hcontrol.1 hcontrol.2
    (fun t => ⟨perform_cnt b op hclear t, perform_psc b op hclear t⟩) h

theorem afterInit_afterOp {b : Block} {i : Instr} {op : MicroOp} (h : b.afterInit) (hbusy : b.busy = true)
    (hcmd : decode b.cmdreg = .command i) (hop : op ∈ uprog i b.mode) (n : Nat) : (b.afterOp op n).afterInit := by
  obtain ⟨hdone, hhalt, hpsrst, hinit, hsynced⟩ := h
  have hi : i.isInit = false := hinit i ⟨hbusy, hcmd⟩
  obtain ⟨hnohalt, -, hnorelease, hnofinish⟩ := mem_uprog_not_init hi hop
  obtain ⟨hhalt', hpsrst'⟩ := perform_syncctl hnohalt hnorelease b
  refine ⟨(perform_initDone b op hnofinish).trans hdone, hhalt'.trans hhalt, hpsrst'.trans hpsrst, fun j hj => ?_,
    timersSynced_perform hi hop hsynced⟩
  rw [running_unique (by simpa using hcmd) hj, hi]

theorem afterInit_tick {b : Block} (h : b.afterInit) : b.tick.afterInit := by
  obtain ⟨hdone, hhalt, hpsrst, hinit, hsynced⟩ := h
  exact ⟨by rw [tick_initDone, hdone], by rw [tick_halt, hhalt], by rw [tick_psrst, hpsrst],
    fun i hi => hinit i (by simpa [Block.running] using hi), timersSynced_tick hpsrst hsynced⟩

/-! ## Every step keeps the stage -/

theorem initStage_tick {b : Block} (h : b.initStage) : b.tick.initStage := by
  by_cases hmode : b.mode = .unset
  · rw [initStage_unset hmode] at h
    exact (initStage_unset (by rw [tick_mode, hmode])).mpr (beforeInit_tick h)
  · cases hdone : b.initDone with
    | true =>
      rw [initStage_done hmode hdone] at h
      exact (initStage_done (by rwa [tick_mode]) (by rw [tick_initDone, hdone])).mpr (afterInit_tick h)
    | false =>
      rw [initStage_during hmode hdone] at h
      exact (initStage_during (by rwa [tick_mode]) (by rw [tick_initDone, hdone])).mpr (duringInit_tick h)

/-- The stage does not depend on FAULTS. -/
theorem initStage_raise (b : Block) (code : FaultCode) (w : Word) : (b.raise code w).initStage ↔ b.initStage := Iff.rfl

/-- Acceptance: INIT only in mode UNSET, WRITE only after INIT (R381), and never while INIT runs. -/
theorem initStage_accept {b : Block} {i : Instr} (hidle : b.busy = false) (hcheck : commandCheck i b = none)
    (h : b.initStage) : (b.accept (encode i) (uprog i b.mode)).initStage := by
  have hrun : ∀ j, (b.accept (encode i) (uprog i b.mode)).running j → j = i :=
    fun j hj => running_unique (b := b.accept _ _) (decode_encode i) hj
  by_cases hmode : b.mode = .unset
  · rw [initStage_unset hmode] at h
    obtain ⟨hdone, hhalt, hpsrst, h1, hp, h2, htop, hdir, hlvl, -, -⟩ := h
    refine (initStage_unset (b := b.accept _ _) hmode).mpr
      ⟨hdone, hhalt, hpsrst, h1, hp, h2, htop, hdir, hlvl, fun _ _ _ => rfl, fun ch code hj => ?_⟩
    rw [← hrun _ hj, commandCheck_write ch code hdone] at hcheck
    cases hcheck
  · cases hdone : b.initDone with
    | true =>
      rw [initStage_done hmode hdone] at h
      obtain ⟨-, hhalt, hpsrst, -, hsynced⟩ := h
      refine (initStage_done (b := b.accept _ _) hmode hdone).mpr ⟨hdone, hhalt, hpsrst, fun j hj => ?_, hsynced⟩
      rw [Bool.eq_false_iff, hrun j hj]
      intro hinit
      rw [commandCheck_init hinit hmode] at hcheck
      cases hcheck
    | false =>
      rw [initStage_during hmode hdone] at h
      obtain ⟨_, _, hrunning, _⟩ := h
      rw [hrunning.1] at hidle
      cases hidle

theorem initStage_afterOp {b : Block} {i : Instr} {op : MicroOp} (hbusy : b.busy = true)
    (hcmd : decode b.cmdreg = .command i) (hop : (uprog i b.mode)[b.upc.toNat]? = some op) (h : b.initStage) :
    (b.afterOp op (uprog i b.mode).length).initStage := by
  have hmem := List.mem_of_getElem? hop
  by_cases hmode : b.mode = .unset
  · rw [initStage_unset hmode] at h
    cases hi : i.isInit with
    | false =>
      exact (initStage_unset (b := b.afterOp op _) ((uprog_perform_mode hmem hi b).trans hmode)).mpr
        (beforeInit_afterOp h hbusy hcmd hi hmem _)
    | true =>
      obtain ⟨m, hm⟩ := (isInit_iff i).mp hi
      have hupc : b.upc = 0#4 := by
        obtain ⟨-, -, -, -, -, -, -, -, -, hinit, -⟩ := h
        exact hinit i ⟨hbusy, hcmd⟩ hi
      rw [uprog_initCommand hm] at hop ⊢
      rw [hupc] at hop
      cases hop
      refine (initStage_during (b := b.afterOp (.setMode m) _) (initCommand_ne_unset hm) h.1).mpr ?_
      exact duringInit_of_setMode h hm hbusy hcmd hupc
  · cases hdone : b.initDone with
    | true =>
      rw [initStage_done hmode hdone] at h
      have h' := afterInit_afterOp h hbusy hcmd hmem (uprog i b.mode).length
      have hi : i.isInit = false := by
        obtain ⟨-, -, -, hinit, -⟩ := h
        exact hinit i ⟨hbusy, hcmd⟩
      have hmode' : (b.afterOp op (uprog i b.mode).length).mode = b.mode := uprog_perform_mode hmem hi b
      exact (initStage_done (by rwa [hmode']) h'.1).mpr h'
    | false =>
      rw [initStage_during hmode hdone] at h
      exact initStage_afterOp_during hmode h hcmd hop

theorem initStage_reset : Block.reset.initStage :=
  (initStage_unset rfl).mpr ⟨rfl, rfl, rfl, rfl, rfl, rfl, rfl, rfl, rfl, fun _ _ _ => rfl, fun _ _ h => nomatch h.1⟩

theorem BlockStep.bootInvariant {turn : Turn} {b c : Block} (hstep : BlockStep turn b c) (h : b.bootInvariant) :
    c.bootInvariant := by
  refine ⟨hstep.sequencerOk h.1, ?_⟩
  obtain ⟨-, hstage⟩ := h
  cases hstep with
  | same => exact hstage
  | tick => exact initStage_tick hstage
  | reset => exact initStage_reset
  | fault x code w => exact (initStage_raise b code w).mpr hstage
  | accept w i hw hturn hidle hcheck => exact initStage_accept hidle hcheck hstage
  | op i o hturn hbusy hcmd hop => exact initStage_afterOp hbusy hcmd hop hstage

/-- Settles O53: by what a step may make of the block, stage by stage. -/
theorem everyStepKeepsTheBootInvariant : Obligations.EveryStepKeepsTheBootInvariant := by
  intro s t h hstep
  obtain ⟨turn, hb⟩ := step_next_block hstep
  exact hb.bootInvariant h

end Sys2Proof.Machine
end

section
/-! PROOFS. What every step keeps of FAULTS, MODE, INIT_DONE and the fields' values, and that a fault has no other
effect. -/

namespace Sys2Proof.Machine

/-! ## FAULTS (R60, R380) -/

/-- Settles O8: `raise` writes FAULTS alone, by insertion. -/
theorem raisingAFaultAddsOnePairAndNothingElse : Obligations.RaisingAFaultAddsOnePairAndNothingElse :=
  fun b code info => ⟨rfl, fun f => mem_insertFault f { code := code, info := info } b.faults⟩

/-- Settles O55: a step leaves FAULTS, inserts into it, or resets. -/
theorem faultSetIsKeptAndOnlyGrows : Obligations.FaultSetIsKeptAndOnlyGrows := by
  intro s t turn rest hs hstep
  obtain ⟨-, -, hb⟩ := step_next_of_cons hs hstep
  generalize t.block = c at hb
  cases hb with
  | same => exact ⟨id, fun _ _ => id⟩
  | tick => simp [Block.faultsSorted]
  | reset h => exact ⟨fun _ => List.Pairwise.nil, fun hne => absurd h hne⟩
  | fault x code w => exact ⟨insertFault_sorted _, fun _ f hf => (mem_insertFault f _ _).mpr (.inr hf)⟩
  | accept => exact ⟨id, fun _ _ => id⟩
  | op => simp [Block.faultsSorted]

/-- A step that adds a fault raised it, at a host access. -/
theorem BlockStep.of_new_fault {turn : Turn} {b c : Block} (h : BlockStep turn b c) {f : ModelFault}
    (hnew : f ∈ c.faults) (hold : f ∉ b.faults) :
    (∃ x, turn = .host x) ∧ c = b.raise f.code f.info := by
  cases h with
  | same => exact absurd hnew hold
  | tick => exact absurd (by simpa using hnew) hold
  | reset => exact absurd hnew List.not_mem_nil
  | fault x code w hturn =>
    rcases (mem_insertFault f _ _).mp hnew with rfl | h
    · exact ⟨⟨x, hturn⟩, rfl⟩
    · exact absurd h hold
  | accept => exact absurd hnew hold
  | op => exact absurd (by simpa using hnew) hold

/-- A read is the host's own turn: it runs no command (R104). -/
theorem step_read {s : State} {size : AccessSize} {off : Offset} {rest : List Turn}
    (hs : s.sched = .host (.read size off) :: rest) : step s = hostTurn (.read size off) s := by
  have hf : fetch s = none := by simp [fetch, hs, commandWord]
  rw [step_of_cons hs, hf]
  simp [agentTurn, hs]

/-- An admitted read. -/
theorem step_read_admitted {s t : State} {size : AccessSize} {off : Offset} {rest : List Turn}
    (hs : s.sched = .host (.read size off) :: rest) (h : step s = .next t) : t = hostRead off s := by
  rw [step_read hs, hostTurn] at h
  split at h
  · cases h; rfl
  · cases h

/-- A read that changes the block is of an unmapped offset, and returns 0 (R104). -/
theorem hostRead_rdata_of_fault {s : State} {off : Offset} (h : (hostRead off s).block ≠ s.block) :
    (hostRead off s).rdata = 0#32 := by
  unfold hostRead at h ⊢
  split at h
  · exact absurd rfl h
  · rfl

/-- Settles O9: the one kind of transition that adds a fault raises it, and nothing else. -/
theorem aTurnThatAddsAFaultHasNoOtherEffect : Obligations.ATurnThatAddsAFaultHasNoOtherEffect := by
  intro s t turn rest f hs hstep hnew hold
  obtain ⟨hsched, hslot, hb⟩ := step_next_of_cons hs hstep
  obtain ⟨hturn, hraise⟩ := hb.of_new_fault hnew hold
  refine ⟨hturn, by rw [hraise]; rfl, fun g => ?_, hsched, hslot, ?_⟩
  · rw [hraise]
    exact mem_insertFault g f s.block.faults
  · rintro size off rfl
    rw [step_read_admitted hs hstep] at hnew ⊢
    exact hostRead_rdata_of_fault fun e => hold (e ▸ hnew)

/-! ## MODE and INIT_DONE (R34, R43) -/

/-- INIT's SET_MODE sets the mode of the INIT. -/
theorem mem_initProgram_setMode {m m' : Mode} (h : .setMode m' ∈ initProgram m) : m' = m := by
  obtain ⟨u, hu⟩ := List.mem_iff_getElem?.mp h
  cases initProgram_place hu
  rfl

/-- With the mode set, the micro-operation in progress does not change it. -/
theorem perform_mode_of_bootInvariant {b : Block} (h : b.bootInvariant) (hmode : b.mode ≠ .unset)
    (hbusy : b.busy = true) {i : Instr} {op : MicroOp} (hcmd : decode b.cmdreg = .command i)
    (hop : op ∈ uprog i b.mode) : (b.perform op).mode = b.mode := by
  cases hi : i.isInit with
  | false => exact uprog_perform_mode hop hi b
  | true =>
    obtain ⟨-, hstage⟩ := h
    cases hdone : b.initDone with
    | true =>
      obtain ⟨-, -, -, hinit, -⟩ := (initStage_done hmode hdone).mp hstage
      rw [hinit i ⟨hbusy, hcmd⟩] at hi
      cases hi
    | false =>
      obtain ⟨j, hj, hrun, -⟩ := (duringInit_iff b).mp ((initStage_during hmode hdone).mp hstage)
      obtain rfl := running_unique hcmd hrun
      rw [uprog_initCommand hj] at hop
      by_cases hset : ∃ m, op = .setMode m
      · obtain ⟨m, rfl⟩ := hset
        exact mem_initProgram_setMode hop
      · exact perform_mode b op fun m e => hset ⟨m, e⟩

/-- No micro-operation clears INIT_DONE. -/
theorem perform_initDone_of_true {b : Block} (h : b.initDone = true) (op : MicroOp) :
    (b.perform op).initDone = true := by
  by_cases hop : op = .initFinish
  · rw [hop]; rfl
  · rw [perform_initDone b op hop, h]

/-- Settles O56: between resets only SET_MODE and INIT_FINISH write the two, and the boot invariant places them. -/
theorem modeIsSetOnceBetweenResets : Obligations.ModeIsSetOnceBetweenResets := by
  intro s t turn rest hs hne hstep
  obtain ⟨-, -, hb⟩ := step_next_of_cons hs hstep
  generalize t.block = c at hb
  cases hb with
  | same => exact ⟨fun _ _ => rfl, id⟩
  | tick => simp
  | reset h => exact absurd h hne
  | fault => exact ⟨fun _ _ => rfl, id⟩
  | accept => exact ⟨fun _ _ => rfl, id⟩
  | op i o hturn hbusy hcmd hop =>
    exact ⟨fun h hmode => perform_mode_of_bootInvariant h hmode hbusy hcmd (List.mem_of_getElem? hop),
      fun h => perform_initDone_of_true h o⟩

/-- Until INIT completes every pin is an input (R424). -/
theorem dir_zero_of_bootInvariant {b : Block} (h : b.bootInvariant) (hdone : b.initDone = false) : b.dir = 0#6 := by
  obtain ⟨-, hstage⟩ := h
  by_cases hmode : b.mode = .unset
  · obtain ⟨-, -, -, -, -, -, -, hdir, -⟩ := (initStage_unset hmode).mp hstage
    exact hdir
  · obtain ⟨-, -, -, -, hdir, -⟩ := (duringInit_iff b).mp ((initStage_during hmode hdone).mp hstage)
    exact hdir

/-- Settles O57: a pin that is an input has OUT = 0. -/
theorem noPinIsDrivenBeforeInitCompletes : Obligations.NoPinIsDrivenBeforeInitCompletes := by
  intro b h hdone p
  have hoe : b.outputEnable p = false := by simp [Block.outputEnable, pinBit, dir_zero_of_bootInvariant h hdone]
  exact ⟨out_of_not_outputEnable hoe, hoe⟩

/-! ## The values of the fields (R49 to R52, R54, R59) -/

theorem auxLegal_setCom {r : TimerRegs 8} (h : auxLegal r) (s : SubChannel) {v : BitVec 2} (hv : comLegal v) :
    auxLegal (r.setCom s v) := by
  obtain ⟨hwgm, hcs, ha, hb, hoa, hob⟩ := h
  cases s with
  | a => exact ⟨hwgm, hcs, hv, hb, hoa, hob⟩
  | b => exact ⟨hwgm, hcs, ha, hv, hoa, hob⟩

theorem priLegal_setCom {r : TimerRegs 16} {top : BitVec 16} (h : priLegal r top) (s : SubChannel) {v : BitVec 2}
    (hv : comLegal v) : priLegal (r.setCom s v) top := by
  obtain ⟨hwgm, hcs, ha, hb, hoa, hob, htop⟩ := h
  cases s with
  | a => exact ⟨hwgm, hcs, hv, hb, hoa, hob, htop⟩
  | b => exact ⟨hwgm, hcs, ha, hv, hoa, hob, htop⟩

theorem auxLegal_setOcr {r : TimerRegs 8} (h : auxLegal r) (s : SubChannel) {v : BitVec 8} (hv : v ≠ 0xFF#8) :
    auxLegal (r.setOcr s v) := by
  obtain ⟨hwgm, hcs, ha, hb, hoa, hob⟩ := h
  cases s with
  | a => exact ⟨hwgm, hcs, ha, hb, hv, hob⟩
  | b => exact ⟨hwgm, hcs, ha, hb, hoa, hv⟩

theorem priLegal_setOcr {r : TimerRegs 16} {top : BitVec 16} (h : priLegal r top) (s : SubChannel) {v : BitVec 16}
    (hv : v ≠ 0xFFFF#16) : priLegal (r.setOcr s v) top := by
  obtain ⟨hwgm, hcs, ha, hb, hoa, hob, htop⟩ := h
  cases s with
  | a => exact ⟨hwgm, hcs, ha, hb, hv, hob, htop⟩
  | b => exact ⟨hwgm, hcs, ha, hb, hoa, hv, htop⟩

theorem comLegal_ite {x : Bool} {v u : BitVec 2} (hv : comLegal v) (hu : comLegal u) :
    comLegal (if x then v else u) := by
  cases x <;> assumption

theorem auxLegal_config {r : TimerRegs 8} (h : auxLegal r) (role : Half) (x y : Bool) :
    auxLegal (r.config wgmFpwm8 (csOfRole role) (comOfRole role) x y) := by
  obtain ⟨-, -, ha, hb, hoa, hob⟩ := h
  have hcs : csOfRole role = csNone ∨ csOfRole role = csDiv1 ∨ csOfRole role = csDiv256 := by cases role <;> decide
  have hcom : comLegal (comOfRole role) := by unfold comLegal; cases role <;> decide
  exact ⟨.inr rfl, hcs, comLegal_ite hcom ha, comLegal_ite hcom hb, hoa, hob⟩

theorem priLegal_config {r : TimerRegs 16} {top : BitVec 16} (h : priLegal r top) (x y : Bool) :
    priLegal (r.config wgmFpwmTop csDiv1 comNoninv x y) 0xFFFF#16 := by
  obtain ⟨-, -, ha, hb, hoa, hob, -⟩ := h
  have hcom : comLegal comNoninv := (by decide : comNoninv ≠ 1#2)
  exact ⟨.inr rfl, .inr rfl, comLegal_ite hcom ha, comLegal_ite hcom hb, hoa, hob, .inr rfl⟩

theorem comLegal_com {b : Block} (h : b.fieldsLegal) (t : Timer) (s : SubChannel) : comLegal (b.com t s) := by
  obtain ⟨⟨-, -, ha1, hb1, -⟩, ⟨-, -, ha2, hb2, -⟩, ⟨-, -, hap, hbp, -⟩, -⟩ := h
  cases t <;> cases s <;> assumption

theorem fieldsLegal_setCom {b : Block} (h : b.fieldsLegal) (t : Timer) (s : SubChannel) {v : BitVec 2}
    (hv : comLegal v) : (b.setCom t s v).fieldsLegal := by
  obtain ⟨h1, h2, hp, hsaved⟩ := h
  cases t with
  | aux1 => exact ⟨auxLegal_setCom h1 s hv, h2, hp, hsaved⟩
  | pri => exact ⟨h1, h2, priLegal_setCom hp s hv, hsaved⟩
  | aux2 => exact ⟨h1, auxLegal_setCom h2 s hv, hp, hsaved⟩

theorem fieldsLegal_setOcr {b : Block} (h : b.fieldsLegal) (t : Timer) (s : SubChannel) {v : BitVec 16}
    (haux : t ≠ .pri → v.toNat ≤ 0xFE) (hpri : t = .pri → v.toNat ≤ 0xFFFE) : (b.setOcr t s v).fieldsLegal := by
  have hnarrow : t ≠ .pri → v.setWidth 8 ≠ 0xFF#8 := fun ht e => by
    have := congrArg BitVec.toNat e
    have := haux ht
    simp at *
    omega
  have hwide : t = .pri → v.setWidth 16 ≠ 0xFFFF#16 := fun ht e => by
    have := congrArg BitVec.toNat e
    have := hpri ht
    simp at *
    omega
  obtain ⟨h1, h2, hp, hsaved⟩ := h
  cases t with
  | aux1 => exact ⟨auxLegal_setOcr h1 s (hnarrow nofun), h2, hp, hsaved⟩
  | pri => exact ⟨h1, h2, priLegal_setOcr hp s (hwide rfl), hsaved⟩
  | aux2 => exact ⟨h1, auxLegal_setOcr h2 s (hnarrow nofun), hp, hsaved⟩

theorem fieldsLegal_opConfig {b : Block} (h : b.fieldsLegal) (t : Timer) (x y : Bool) :
    (b.opConfig t x y).fieldsLegal := by
  obtain ⟨h1, h2, hp, hsaved⟩ := h
  cases t with
  | aux1 => exact ⟨auxLegal_config h1 _ x y, h2, hp, hsaved⟩
  | pri => exact ⟨h1, h2, priLegal_config hp x y, hsaved⟩
  | aux2 => exact ⟨h1, auxLegal_config h2 _ x y, hp, hsaved⟩

/-- A micro-operation of a command's micro-program writes legal values only. -/
theorem fieldsLegal_perform {b : Block} {i : Instr} {m : Mode} {op : MicroOp} (h : b.fieldsLegal)
    (hop : op ∈ uprog i m) : (b.perform op).fieldsLegal := by
  cases op with
  | config t x y => exact fieldsLegal_opConfig h t x y
  | writeOcr t s v =>
    obtain ⟨haux, hpri⟩ := compareValuesLieInTheirRanges i m t s v hop
    exact fieldsLegal_setOcr h t s haux fun ht => (hpri ht).2
  | static p v => exact fieldsLegal_setCom h _ _ (by decide : comOff ≠ 1#2)
  | restoreCom p =>
    refine fieldsLegal_setCom h _ _ ?_
    obtain ⟨-, -, -, hsaved⟩ := h
    exact hsaved
  | saveCom p =>
    have hcom := comLegal_com h (tmr p) (subch p)
    obtain ⟨h1, h2, hp, -⟩ := h
    exact ⟨h1, h2, hp, hcom⟩
  | setMode _ | syncHalt | syncClear | syncRelease | initFinish | encStore _ | qhiStore _ _ | setDir _ | setLvl _ _ =>
    exact h

theorem fieldsLegal_tick {b : Block} (h : b.fieldsLegal) : b.tick.fieldsLegal := by
  cases hhalt : b.halt with
  | true => rw [tick_halted hhalt]; exact h
  | false =>
    obtain ⟨h1', hp', h2'⟩ := tick_regs hhalt
    unfold Block.fieldsLegal
    rw [h1', hp', h2', tick_priTop, tick_savedCom, TimerRegs.tick_frame b.aux1, TimerRegs.tick_frame b.aux2,
      TimerRegs.tick_frame b.pri]
    exact h

theorem fieldsLegal_reset : Block.reset.fieldsLegal := by
  unfold Block.fieldsLegal auxLegal priLegal comLegal
  decide

/-- Settles O54: by what a step may make of the block. -/
theorem everyStepKeepsTheFieldsLegal : Obligations.EveryStepKeepsTheFieldsLegal := by
  intro s t h hstep
  obtain ⟨turn, hb⟩ := step_next_block hstep
  generalize t.block = c at hb
  cases hb with
  | same => exact h
  | tick => exact fieldsLegal_tick h
  | reset => exact fieldsLegal_reset
  | fault => exact h
  | accept => exact h
  | op i o hturn hbusy hcmd hop => exact fieldsLegal_perform h (List.mem_of_getElem? hop)

/-- Settles O50: each at the reset block. -/
theorem invariantsHoldAtReset : Obligations.InvariantsHoldAtReset :=
  ⟨⟨sequencerOk_reset, initStage_reset⟩, fieldsLegal_reset, List.Pairwise.nil, rfl⟩

end Sys2Proof.Machine
end

section
/-! PROOFS. A command's transitions (R162, R163): which one a step takes, acceptance, one sequencer step, and the run of a
whole micro-program. -/

namespace Sys2Proof.Machine

/-! ## The step of a command -/

theorem step_of_fetch {s : State} {turn : Turn} {rest : List Turn} (hs : s.sched = turn :: rest) {i : Instr}
    (hf : fetch s = some i) : step s = exec i s := by
  rw [step_of_cons hs, hf]

theorem step_eq_exec_cmdWrite {s : State} {w : Word} {rest : List Turn} {i : Instr} (hs : s.sched = cmdWrite w :: rest)
    (hw : decode w = .command i) : step s = exec i s :=
  step_of_fetch hs (by simp [fetch, hs, cmdWrite, commandOf_some.mpr hw])

theorem step_eq_exec_sequencer {s : State} {rest : List Turn} {i : Instr} (hs : s.sched = .sequencer :: rest)
    (hbusy : s.block.busy = true) (hcmd : decode s.block.cmdreg = .command i) : step s = exec i s :=
  step_of_fetch hs (by simp [fetch, hs, hbusy, commandOf_some.mpr hcmd])

/-- Settles O6: the turn at the head names the command that is fetched. -/
theorem stepRunsTheDecodedCommand : Obligations.StepRunsTheDecodedCommand := by
  intro s i w rest
  refine ⟨step_eq_exec_cmdWrite, step_eq_exec_sequencer, fun hs => ?_, fun _ => ?_⟩
  · rw [← step_scheduled]
    simp [State.scheduled, hs]
  · refine step_eq_exec_cmdWrite (w := encode i) (rest := s.sched) ?_ (decode_encode i)
    rw [withFetchWord_sched, Nat.mod_eq_of_lt (encode i).isLt, BitVec.ofNat_toNat, BitVec.setWidth_eq]

/-! ## Acceptance -/

/-- Settles O11: the checks of R381 pass, so the write is accepted. -/
theorem everyCommandIsAcceptedWhenItsChecksPass : Obligations.EveryCommandIsAcceptedWhenItsChecksPass :=
  fun _ _ _ hs hb hinit hwrite => exec_cmdWrite_accepted hs hb (commandCheck_none hinit hwrite)

/-- Settles O10: NOP has no check and no micro-operation. -/
theorem nopCompletesAtItsAcceptance : Obligations.NopCompletesAtItsAcceptance :=
  fun _ _ hs hb => exec_cmdWrite_accepted hs hb rfl

/-- A command that its own check turns away raises that fault alone. -/
theorem exec_cmdWrite_refused {i : Instr} {s : State} {w : Word} {rest : List Turn} {code : FaultCode}
    (hs : s.sched = cmdWrite w :: rest) (hb : s.block.busy = false) (hw : encode i = w)
    (hc : commandCheck i s.block = some code) :
    exec i s = .next { s with sched := rest, block := s.block.raise code w } := by
  rw [exec_eq_transition, transition_cmdWrite hs, hw, ← done_of_cons hs]
  simp [issue, hb, hc]

/-- Settles O14: by the checks of INIT and of WRITE. -/
theorem initAndWriteAreTurnedAwayWithoutEffect : Obligations.InitAndWriteAreTurnedAwayWithoutEffect :=
  fun _ _ _ hs hb => ⟨fun hm _ hi hw => exec_cmdWrite_refused hs hb hw (commandCheck_init hi hm),
    fun hd ch code hw => exec_cmdWrite_refused hs hb hw (commandCheck_write ch code hd)⟩

/-- Settles O29: a channel invalid in the mode has the empty micro-program. -/
theorem writeToAnInvalidChannelChangesNothing : Obligations.WriteToAnInvalidChannelChangesNothing := by
  intro s ch code rest hb hdone hch hfour hrev hs
  have hinvalid : validChannel s.block.mode ch = false := by
    rcases hch with rfl | rfl <;> simp [validChannel, primaryRouted, fourChannel, hfour, hrev]
  have hprog : uprog (.write ch code) s.block.mode = [] := writeProgram_invalid hinvalid code
  rw [exec_cmdWrite_accepted hs hb (commandCheck_none (by simp [Instr.isInit]) fun _ _ _ => hdone), hprog]
  rfl

/-! ## One sequencer step -/

/-- The block after a micro-operation with BUSY = 1. -/
theorem afterOp_of_busy {b : Block} (hbusy : b.busy = true) (op : MicroOp) (n : Nat) :
    b.afterOp op n =
      { b.perform op with upc := BitVec.ofNat 4 (b.upc.toNat + 1), busy := decide (b.upc.toNat + 1 ≠ n) } := by
  have hbool : busyAfterStep (b.upc.toNat + 1) n true = decide (b.upc.toNat + 1 ≠ n) := by
    unfold busyAfterStep
    split <;> simp [*]
  simp only [Block.afterOp, hbusy, hbool]

/-- A sequencer's turn that is not enabled passes (R163). -/
theorem sequencerTurn_idle {s : State} {rest : List Turn} (hs : s.sched = .sequencer :: rest)
    (hb : s.block.busy = false) :
    (∀ i, exec i s = .next { s with sched := rest }) ∧ step s = .next { s with sched := rest } := by
  rw [← pop_of_cons hs]
  constructor
  · intro i
    rw [exec_eq_transition, transition_sequencer hs]
    simp [sequencerStep, hb]
  · have hf : fetch s = none := by simp [fetch, hs, hb]
    rw [step_of_cons hs, hf]
    simp [agentTurn, hs, idleSequencer, hb]

/-- Settles O12: the command CMDREG decodes to is the one the step runs. -/
theorem sequencerTurnPerformsOneMicroOperation : Obligations.SequencerTurnPerformsOneMicroOperation := by
  intro i op s rest hs
  refine ⟨fun hb hop => ⟨?_, step_eq_exec_sequencer hs hb⟩, fun hb => ?_⟩
  · rw [exec_sequencer_performs hs hb hop, afterOp_of_busy hb]
  · obtain ⟨hexec, hstep⟩ := sequencerTurn_idle hs hb
    exact ⟨hexec i, hstep⟩

/-! ## The whole micro-program -/

/-- The block `b` once the micro-operations `ops` that were left of a program of `n` are performed. -/
def Block.finished (b : Block) (ops : List MicroOp) (n : Nat) : Block :=
  { b.performAll ops with cmdreg := b.cmdreg, upc := BitVec.ofNat 4 n, busy := false }

theorem finished_nil {b : Block} {n : Nat} (hupc : b.upc.toNat = n) (hb : b.busy = false) : b.finished [] n = b := by
  have hupc' : BitVec.ofNat 4 n = b.upc := by rw [← hupc]; simp
  simp [Block.finished, Block.performAll, hupc', ← hb]

theorem finished_afterOp (b : Block) (op : MicroOp) (ops : List MicroOp) (k n : Nat) :
    (b.afterOp op k).finished ops n = b.finished (op :: ops) n := by
  have h := performAll_ofSequencer ops (b.perform op) b.cmdreg (BitVec.ofNat 4 (b.upc.toNat + 1))
    (busyAfterStep (b.upc.toNat + 1) k b.busy)
  have hafter : b.afterOp op k = { b.perform op with
      cmdreg := b.cmdreg, upc := BitVec.ofNat 4 (b.upc.toNat + 1), busy := busyAfterStep (b.upc.toNat + 1) k b.busy } := by
    conv_lhs => rw [Block.afterOp]
    rw [← perform_cmdreg b op]
  rw [← hafter] at h
  simp only [Block.finished, h, afterOp_cmdreg, perform_cmdreg]
  rfl

/-- The command i has the micro-operations `ops` left: they stand at UPC, and BUSY tells whether there are any. -/
structure Block.hasLeft (b : Block) (i : Instr) (ops : List MicroOp) : Prop where
  left : (uprog i b.mode).drop b.upc.toNat = ops
  upc_le : b.upc.toNat ≤ (uprog i b.mode).length
  busy : b.busy = decide (ops ≠ [])

theorem Block.hasLeft.head {b : Block} {i : Instr} {op : MicroOp} {ops : List MicroOp} (h : b.hasLeft i (op :: ops)) :
    (uprog i b.mode)[b.upc.toNat]? = some op := by
  have hhead := congrArg (·[0]?) h.left
  simpa [List.getElem?_drop] using hhead

/-- A micro-operation performed is one less left, of the same micro-program. -/
theorem Block.hasLeft.afterOp {b : Block} {i : Instr} {op : MicroOp} {ops : List MicroOp}
    (h : b.hasLeft i (op :: ops)) :
    uprog i (b.afterOp op (uprog i b.mode).length).mode = uprog i b.mode ∧
      (b.afterOp op (uprog i b.mode).length).hasLeft i ops := by
  have hop := h.head
  have hlt := upc_lt_length hop
  have hprog : uprog i (b.afterOp op (uprog i b.mode).length).mode = uprog i b.mode :=
    uprog_perform (List.mem_of_getElem? hop) b rfl
  have hleft : (uprog i b.mode).drop (b.upc.toNat + 1) = ops := by
    rw [← List.tail_drop, h.left, List.tail_cons]
  refine ⟨hprog, ?_, ?_, ?_⟩
  · rw [hprog, afterOp_upc_toNat hop, hleft]
  · rw [hprog, afterOp_upc_toNat hop]
    exact hlt
  · have hlast : b.upc.toNat + 1 = (uprog i b.mode).length ↔ ops = [] := by
      rw [← hleft, List.drop_eq_nil_iff]
      omega
    have hbusy : b.busy = true := by simpa using h.busy
    rw [afterOp_of_busy hbusy]
    simp [hlast]

/-- The micro-operations that are left, run by the sequencer's turns: the same by the command's meaning and by the
machine's own steps (R163, R165). -/
theorem execTurns_sequencer {i : Instr} {rest : List Turn} (ops : List MicroOp) {s : State}
    (hs : s.sched = List.replicate ops.length .sequencer ++ rest) (hcmd : decode s.block.cmdreg = .command i)
    (h : s.block.hasLeft i ops) :
    execTurns i ops.length s = .next
      { s with sched := rest, block := s.block.finished ops (uprog i s.block.mode).length } ∧
    Host.Core.run Sys2Proof.core ops.length s = execTurns i ops.length s := by
  induction ops generalizing s with
  | nil =>
    have hupc : s.block.upc.toNat = (uprog i s.block.mode).length :=
      Nat.le_antisymm h.upc_le (List.drop_eq_nil_iff.mp h.left)
    have hrest : rest = s.sched := by simpa using hs.symm
    rw [finished_nil hupc (by simpa using h.busy), hrest]
    exact ⟨rfl, rfl⟩
  | cons op ops ih =>
    have hbusy : s.block.busy = true := by simpa using h.busy
    have hs' : s.sched = .sequencer :: (List.replicate ops.length .sequencer ++ rest) := hs
    have hexec := exec_sequencer_performs hs' hbusy h.head
    have hstep : step s = _ := (step_eq_exec_sequencer hs' hbusy hcmd).trans hexec
    obtain ⟨hprog, hleft⟩ := h.afterOp
    obtain ⟨hturns, hrun⟩ := ih (s := { s with
      sched := List.replicate ops.length .sequencer ++ rest
      block := s.block.afterOp op (uprog i s.block.mode).length }) rfl (by simpa using hcmd) hleft
    rw [hprog, finished_afterOp] at hturns
    have hexecTurns : execTurns i (op :: ops).length s = execTurns i ops.length
        { s with
          sched := List.replicate ops.length .sequencer ++ rest
          block := s.block.afterOp op (uprog i s.block.mode).length } := by
      rw [List.length_cons, execTurns, hexec]
    rw [hexecTurns]
    exact ⟨hturns, (run_succ ops.length hstep).trans hrun⟩

/-- Accepted, a command has its whole micro-program left. -/
theorem hasLeft_accept (b : Block) (i : Instr) :
    (b.accept (encode i) (uprog i b.mode)).hasLeft i (uprog i b.mode) := by
  refine ⟨rfl, Nat.zero_le _, ?_⟩
  simp [busyAfterAccept, List.length_pos_iff]

theorem finished_accept (b : Block) (w : Word) (p ops : List MicroOp) (n : Nat) :
    (b.accept w p).finished ops n =
      { b.performAll ops with cmdreg := w, upc := BitVec.ofNat 4 n, busy := false } := by
  have h : (b.accept w p).performAll ops = _ :=
    performAll_ofSequencer ops b w 0#4 (busyAfterAccept p.length)
  rw [Block.finished, h]
  rfl

/-- Settles O13: the CMD write leaves the whole micro-program to the sequencer's turns. -/
theorem everyAcceptedCommandRunsItsMicroProgram : Obligations.EveryAcceptedCommandRunsItsMicroProgram := by
  intro i s rest hb hinit hwrite hs
  have hs' : s.sched = cmdWrite (encode i) :: (List.replicate (uprog i s.block.mode).length .sequencer ++ rest) := hs
  have hexec := exec_cmdWrite_accepted hs' hb (commandCheck_none hinit hwrite)
  have hstep : step s = _ := (step_eq_exec_cmdWrite hs' (decode_encode i)).trans hexec
  have hlen : (commandTurns i s.block.mode).length = (uprog i s.block.mode).length + 1 := by simp [commandTurns]
  obtain ⟨hturns, hrun⟩ := execTurns_sequencer (i := i) (rest := rest) (uprog i s.block.mode) (s := { s with
      sched := List.replicate (uprog i s.block.mode).length .sequencer ++ rest
      block := s.block.accept (encode i) (uprog i s.block.mode) }) rfl (decode_encode i) (hasLeft_accept s.block i)
  rw [finished_accept] at hturns
  rw [hlen, execTurns, hexec]
  exact ⟨hturns, (run_succ _ hstep).trans hrun⟩

/-! ## INIT (R221, R222) -/

/-- What INIT TWO's micro-operations leave: PRI configured, every count 0 (R281, R230). -/
theorem performAll_initTwo (b : Block) : b.performAll (initProgram .two) = { b with
    initDone := true, mode := .two, halt := false, psrst := false, priTop := 0xFFFF#16
    pri := { b.pri with wgm := 2#2, cs := 1#3, cnt := 0#16, psc := 0#8 }
    aux1 := { b.aux1 with cnt := 0#8, psc := 0#8 }
    aux2 := { b.aux2 with cnt := 0#8, psc := 0#8 } } := by
  simp [Block.performAll, initProgram, syncProgram, fourChannel, Block.opConfig, TimerRegs.config, Block.withoutCounts,
    TimerRegs.clearCount, csDiv1, wgmFpwmTop]

/-- In mode FOUR AUX1 plays Low and AUX2 High (R302). -/
theorem performAll_initFour (b : Block) : b.performAll (initProgram .four) = { b with
    initDone := true, mode := .four, halt := false, psrst := false, priTop := 0xFFFF#16
    pri := { b.pri with wgm := 2#2, cs := 1#3, cnt := 0#16, psc := 0#8 }
    aux1 := { b.aux1 with wgm := 1#2, cs := 1#3, cnt := 0#8, psc := 0#8 }
    aux2 := { b.aux2 with wgm := 1#2, cs := 2#3, cnt := 0#8, psc := 0#8 } } := by
  simp [Block.performAll, initProgram, syncProgram, fourChannel, Block.opConfig, TimerRegs.config, Block.withoutCounts,
    TimerRegs.clearCount, role, isHighHalf, modeIsReversed, csOfRole, csDiv1, csDiv256, wgmFpwm8, wgmFpwmTop]

/-- In mode REV the roles are exchanged (R302). -/
theorem performAll_initRev (b : Block) : b.performAll (initProgram .rev) = { b with
    initDone := true, mode := .rev, halt := false, psrst := false, priTop := 0xFFFF#16
    pri := { b.pri with wgm := 2#2, cs := 1#3, cnt := 0#16, psc := 0#8 }
    aux1 := { b.aux1 with wgm := 1#2, cs := 2#3, cnt := 0#8, psc := 0#8 }
    aux2 := { b.aux2 with wgm := 1#2, cs := 1#3, cnt := 0#8, psc := 0#8 } } := by
  simp [Block.performAll, initProgram, syncProgram, fourChannel, Block.opConfig, TimerRegs.config, Block.withoutCounts,
    TimerRegs.clearCount, role, isHighHalf, modeIsReversed, csOfRole, csDiv1, csDiv256, wgmFpwm8, wgmFpwmTop]

/-- The run of an INIT in mode UNSET, its turns counted. -/
theorem execTurns_init {i : Instr} {m : Mode} {n : Nat} {s : State} {rest : List Turn} (hi : initCommand m = some i)
    (hb : s.block.busy = false) (hm : s.block.mode = .unset) (hs : s.sched = commandTurns i .unset ++ rest)
    (hn : (initProgram m).length = n) :
    execTurns i (n + 1) s = .next { s with sched := rest, block :=
      { s.block.performAll (initProgram m) with cmdreg := encode i, upc := BitVec.ofNat 4 n, busy := false } } := by
  have hinit : i.isInit = true := (isInit_iff i).mpr ⟨m, hi⟩
  rw [← hm] at hs
  obtain ⟨h, -⟩ := everyAcceptedCommandRunsItsMicroProgram i s rest hb (fun _ => hm)
    (fun ch code e => by rw [e] at hinit; simp [Instr.isInit] at hinit) hs
  have hlen : (commandTurns i s.block.mode).length = n + 1 := by simp [commandTurns, uprog_initCommand hi, hn]
  rw [hlen, uprog_initCommand hi, hn] at h
  exact h

/-- Settles O15: each INIT's run performs its program, whose micro-operations leave the values of R281 and R230. -/
theorem initEndsConfiguredAndSynchronized : Obligations.InitEndsConfiguredAndSynchronized := by
  intro s rest hb hm
  refine ⟨fun hs => ?_, fun hs => ?_, fun hs => ?_⟩
  · rw [execTurns_init (m := .two) (n := 6) rfl hb hm hs rfl, performAll_initTwo]
    rfl
  · rw [execTurns_init (m := .four) (n := 8) rfl hb hm hs rfl, performAll_initFour]
    rfl
  · rw [execTurns_init (m := .rev) (n := 8) rfl hb hm hs rfl, performAll_initRev]
    rfl

end Sys2Proof.Machine
end

section
/-! PROOFS. The Duty Encoder's laws (R254, R257), and the pins: what they show, and the duty of a sub-channel (file 40). -/

namespace Sys2Proof.Machine

/-! ## The bytes of a code -/

/-- Settles O19: quotient and remainder give code + 1 back. -/
theorem encodedBytesGiveBackTheCode : Obligations.EncodedBytesGiveBackTheCode := by
  intro code hoff hon
  obtain ⟨hhigh, hlow⟩ := encodeDuty_bytes hon hoff
  rw [hhigh, hlow]
  omega

theorem byte_eq_zero_iff (v : Byte) : v = 0#8 ↔ v.toNat = 0 := BitVec.toNat_eq

/-- A code with code + 1 = n, n from 2 to 0xFFFF, is unflagged and has the bytes of n. -/
theorem exists_code_of_succ {n : Nat} (h2 : 2 ≤ n) (hn : n ≤ 0xFFFF) : ∃ code : Code, code ≠ 0x0000#16 ∧
    code ≠ 0xFFFF#16 ∧ (encodeDuty code).high.toNat = n / 256 ∧ (encodeDuty code).low.toNat = n % 256 := by
  have hval : (BitVec.ofNat 16 (n - 1)).toNat = n - 1 := by rw [BitVec.toNat_ofNat]; omega
  have hoff : BitVec.ofNat 16 (n - 1) ≠ 0x0000#16 := fun e => by
    have h0 : n - 1 = 0 := hval ▸ congrArg BitVec.toNat e
    omega
  have hon : BitVec.ofNat 16 (n - 1) ≠ 0xFFFF#16 := fun e => by
    have h1 : n - 1 = 0xFFFF := hval ▸ congrArg BitVec.toNat e
    omega
  obtain ⟨hhigh, hlow⟩ := encodeDuty_bytes hon hoff
  rw [hval, Nat.sub_add_cancel (by omega)] at hhigh hlow
  exact ⟨_, hoff, hon, hhigh, hlow⟩

/-- Settles O21: the bytes as quotient and remainder; byte * 256 + 1 and 256 + byte show that each takes every value. -/
theorem zeroBytesStandWhereTheRuleSays : Obligations.ZeroBytesStandWhereTheRuleSays := by
  constructor
  · intro code hoff hon
    obtain ⟨hhigh, hlow⟩ := encodeDuty_bytes hon hoff
    have hpos : code.toNat ≠ 0 := fun e => hoff (BitVec.eq_of_toNat_eq e)
    have hmask : (code &&& 0x00FF#16).toNat = code.toNat % 256 := by
      rw [BitVec.toNat_and]
      exact Nat.and_two_pow_sub_one_eq_mod _ 8
    have h255 : (0x00FF#16).toNat = 255 := rfl
    refine ⟨?_, ?_, encodeDuty_bytes_not_both_zero hon hoff⟩
    · rw [byte_eq_zero_iff, hhigh]
      omega
    · rw [byte_eq_zero_iff, hlow, BitVec.toNat_eq, hmask, h255]
      omega
  · intro byte hbyte
    have hpos : byte.toNat ≠ 0 := fun e => hbyte (BitVec.eq_of_toNat_eq e)
    have hlt : byte.toNat < 256 := byte.isLt
    constructor
    · obtain ⟨code, hoff, hon, hhigh, -⟩ :=
        exists_code_of_succ (n := byte.toNat * 256 + 1) (by omega) (by omega)
      exact ⟨code, hoff, hon, BitVec.eq_of_toNat_eq (hhigh.trans (by omega))⟩
    · obtain ⟨code, hoff, hon, -, hlow⟩ := exists_code_of_succ (n := 256 + byte.toNat) (by omega) (by omega)
      exact ⟨code, hoff, hon, BitVec.eq_of_toNat_eq (hlow.trans (by omega))⟩

/-! ## What a pin shows (R187, R188) -/

theorem wave_eq (b : Block) (t : Timer) (s : SubChannel) : b.wave t s =
    if b.com t s = 2#2 then some (decide ((b.cnt t).toNat ≤ (b.ocr t s).toNat))
    else if b.com t s = 3#2 then some (!decide ((b.cnt t).toNat ≤ (b.ocr t s).toNat))
    else none := by
  have hwide : ∀ c : BitVec 8, (c.setWidth 16).toNat = c.toNat := fun c => by simp; omega
  cases t with
  | pri => rfl
  | aux1 => simp only [Block.cnt, Block.ocr, hwide]; rfl
  | aux2 => simp only [Block.cnt, Block.ocr, hwide]; rfl

theorem wave_noninv {b : Block} {t : Timer} {s : SubChannel} (h : b.com t s = 2#2) :
    b.wave t s = some (decide ((b.cnt t).toNat ≤ (b.ocr t s).toNat)) := by rw [wave_eq, if_pos h]

theorem wave_inv {b : Block} {t : Timer} {s : SubChannel} (h : b.com t s = 3#2) :
    b.wave t s = some (decide ((b.ocr t s).toNat < (b.cnt t).toNat)) := by
  rw [wave_eq, h, if_neg (by decide), if_pos rfl, ← decide_not]
  simp only [not_le]

theorem wave_disconnected {b : Block} {t : Timer} {s : SubChannel} (h2 : b.com t s ≠ 2#2) (h3 : b.com t s ≠ 3#2) :
    b.wave t s = none := by rw [wave_eq, if_neg h2, if_neg h3]

/-- OUT of a driven pin: its wave where there is one, else its level. -/
theorem out_driven {b : Block} {t : Timer} {s : SubChannel} (h : pinBit b.dir (pin t s) = true) :
    b.out (pin t s) = (b.wave t s).getD (pinBit b.lvl (pin t s)) := by
  simp only [Block.out, h, if_true, tmr_pin, subch_pin]
  cases b.wave t s <;> rfl

theorem out_undriven {b : Block} {p : Pin} (h : pinBit b.dir p = false) : b.out p = false := by simp [Block.out, h]

/-- A driven pin whose compare output is disconnected shows its level. -/
theorem out_static {b : Block} {t : Timer} {s : SubChannel} (hdir : pinBit b.dir (pin t s) = true)
    (h2 : b.com t s ≠ 2#2) (h3 : b.com t s ≠ 3#2) : b.out (pin t s) = pinBit b.lvl (pin t s) := by
  rw [out_driven hdir, wave_disconnected h2 h3, Option.getD_none]

/-! ## PINOUT (R57) -/

/-- A masked zero-extension is the extension of what the mask's low part leaves. -/
theorem setWidth_and_eq_zero {n k : Nat} {v : BitVec n} {m : BitVec k} (h : v &&& m.setWidth n = 0) :
    v.setWidth k &&& m = 0 := by
  apply BitVec.eq_of_getLsbD_eq
  intro j hj
  have hbit := congrArg (·.getLsbD j) h
  simp only [BitVec.getLsbD_and, BitVec.getLsbD_setWidth] at hbit ⊢
  by_cases hn : j < n
  · simpa [hn, hj] using hbit
  · simp [BitVec.getLsbD_of_ge v j (by omega)]

/-- Two 6-bit pin values apart by two zero bits, as PINCTL and PINOUT hold them. -/
theorem pinPair_low (hi lo : BitVec 6) (p : Pin) : ((hi ++ 0#2 ++ lo).setWidth 32).getLsbD p.val = pinBit lo p := by
  have hp : p.val < 6 := p.isLt
  simp only [pinBit, BitVec.getLsbD_setWidth, BitVec.getLsbD_append]
  grind

theorem pinPair_high (hi lo : BitVec 6) (p : Pin) :
    ((hi ++ 0#2 ++ lo).setWidth 32).getLsbD (8 + p.val) = pinBit hi p := by
  have hp : p.val < 6 := p.isLt
  have hplace : 8 + p.val - 6 - 2 = p.val := by omega
  simp only [pinBit, BitVec.getLsbD_setWidth, BitVec.getLsbD_append, hplace]
  grind

theorem pinPair_masked (hi lo : BitVec 6) : (hi ++ 0#2 ++ lo).setWidth 32 &&& 0xFFFFC0C0#32 = 0#32 := by
  apply setWidth_and_eq_zero
  have hmask : (0xFFFFC0C0#32).setWidth (6 + 2 + 6) = 0#6 ++ 3#2 ++ 0#6 := by decide
  rw [hmask, BitVec.and_append, BitVec.and_append]
  simp

/-- Settles O40: R187's comparison through `wave_eq`, R188's cases through `out_driven`, R57's bits through the pair. -/
theorem pinsShowWaveOrStaticLevel : Obligations.PinsShowWaveOrStaticLevel := by
  intro b t s
  refine ⟨rfl, out_undriven, fun hdir hcom => ?_, wave_noninv, wave_inv, out_static, ?_, ?_, pinPair_masked _ _⟩
  · rw [out_driven hdir]
    rcases hcom with h | h
    · rw [wave_noninv h, Option.getD_some]
    · rw [wave_inv h, Option.getD_some]
  · exact (pinPair_low _ _ _).trans (pinBit_pinVector _ _)
  · exact (pinPair_high _ _ _).trans (pinBit_pinVector _ _)

/-! ## The duty of a sub-channel (R189) -/

/-- Of the numbers below n, those up to v. -/
theorem countP_range_le (n v : Nat) : (List.range n).countP (fun c => decide (c ≤ v)) = min n (v + 1) := by
  induction n with
  | zero => simp
  | succ n ih =>
    rw [List.range_succ, List.countP_append, ih, List.countP_singleton]
    by_cases h : n ≤ v
    · simp [h]
      omega
    · simp [h]
      omega

/-- The wave of one register set at the count c. -/
theorem TimerRegs.wave_at {w : Nat} (r : TimerRegs w) (s : SubChannel) {c : Nat} (hc : c < 2 ^ w) :
    ({ r with cnt := BitVec.ofNat w c } : TimerRegs w).wave s =
      if r.com s = 2#2 then some (decide (c ≤ (r.ocr s).toNat))
      else if r.com s = 3#2 then some (!decide (c ≤ (r.ocr s).toNat)) else none := by
  have hcnt : (BitVec.ofNat w c).toNat = c := by rw [BitVec.toNat_ofNat, Nat.mod_eq_of_lt hc]
  have hcom : ({ r with cnt := BitVec.ofNat w c } : TimerRegs w).com s = r.com s := by cases s <;> rfl
  have hocr : ({ r with cnt := BitVec.ofNat w c } : TimerRegs w).ocr s = r.ocr s := by cases s <;> rfl
  simp only [TimerRegs.wave, hcom, hocr, hcnt, comNoninv, comInv]

/-- Settles O41: the counts at which the wave is 1 are those up to the compare value, or the others. -/
theorem dutyOfOneSubChannel : Obligations.DutyOfOneSubChannel := by
  intro w r s top htop hocr
  have hlt : ∀ c ∈ List.range (top + 1), c < 2 ^ w := fun c hc => by
    have := List.mem_range.mp hc
    omega
  have hle := countP_range_le (top + 1) (r.ocr s).toNat
  constructor
  · intro h
    have hcongr : ∀ c ∈ List.range (top + 1),
        (({ r with cnt := BitVec.ofNat w c } : TimerRegs w).wave s == some true) = true ↔
          decide (c ≤ (r.ocr s).toNat) = true := fun c hc => by
      rw [r.wave_at s (hlt c hc), if_pos h]
      simp
    rw [List.countP_congr hcongr, hle]
    omega
  · intro h
    have hcongr : ∀ c ∈ List.range (top + 1),
        (({ r with cnt := BitVec.ofNat w c } : TimerRegs w).wave s == some true) = true ↔
          ¬ decide (c ≤ (r.ocr s).toNat) = true := fun c hc => by
      rw [r.wave_at s (hlt c hc), h, if_neg (by decide), if_pos rfl]
      simp
    have hsplit := List.length_eq_countP_add_countP (fun c => decide (c ≤ (r.ocr s).toNat)) (l := List.range (top + 1))
    rw [hle, List.length_range] at hsplit
    have hcount := List.countP_congr (q := fun c => decide (¬ decide (c ≤ (r.ocr s).toNat) = true))
      fun c hc => (hcongr c hc).trans (by simp)
    rw [hcount]
    omega

end Sys2Proof.Machine
end

section
/-! PROOFS. The host bus (file 20): the address map, reads and writes, and the places of the fields in the registers. -/

namespace Sys2Proof.Machine

/-! ## The address map (R101) -/

theorem offset_of_regAt {off : Offset} {r : Reg} (h : regAt off = some r) : off.toNat = r.offset := by
  unfold regAt at h
  split at h <;> cases h <;> assumption

theorem regAt_of_offset {off : Offset} {r : Reg} (h : off.toNat = r.offset) : regAt off = some r := by
  obtain rfl : off = BitVec.ofNat 8 r.offset := by rw [← h]; simp
  cases r with
  | cmd | status | encres | qres | syncctl | top | pinctl | pinout => rfl
  | ctrl t | cnt t | psc t => cases t <;> rfl
  | ocr t s => cases t <;> cases s <;> rfl

/-- Settles O42: the map's rows one by one, and the offsets by evaluation. -/
theorem addressMapHoldsEveryRegisterOnce : Obligations.AddressMapHoldsEveryRegisterOnce := by
  intro off r
  refine ⟨⟨offset_of_regAt, regAt_of_offset⟩, ?_⟩
  cases r with
  | cmd | status | encres | qres | syncctl | top | pinctl | pinout => rfl
  | ctrl t | cnt t | psc t => cases t <;> rfl
  | ocr t s => cases t <;> cases s <;> rfl

/-! ## Reads and writes (R104, R105) -/

theorem step_read_word {s : State} {off : Offset} {rest : List Turn} (hs : s.sched = .host (.read .word off) :: rest)
    (halign : off.toNat % 4 = 0) : step s = .next (hostRead off s) := by
  rw [step_read hs, hostTurn, if_pos ((wellFormed_iff (.read .word off)).mpr ⟨rfl, halign⟩)]

theorem hostRead_mapped {s : State} {off : Offset} {r : Reg} (h : regAt off = some r) :
    hostRead off s = { s.pop with rdata := s.block.readReg r } := by
  simp [hostRead, h]

theorem hostRead_unmapped {s : State} {off : Offset} (h : regAt off = none) :
    hostRead off s = { s.done (s.block.raise .badAccess (off.setWidth 32)) with rdata := 0#32 } := by
  simp [hostRead, h]

/-- Settles O43: an aligned 32-bit read is admitted, and the map tells what it returns. -/
theorem hostReadReturnsTheRegister : Obligations.HostReadReturnsTheRegister := by
  intro s off rest hs halign
  rw [step_read_word hs halign]
  refine ⟨fun r h => ?_, fun h => ?_⟩
  · rw [hostRead_mapped h, pop_of_cons hs]
  · rw [hostRead_unmapped h, done_of_cons hs]

/-- A fault that is a member already changes nothing (R60). -/
theorem insertFault_insertFault (f : ModelFault) (l : List ModelFault) :
    insertFault f (insertFault f l) = insertFault f l := by
  induction l with
  | nil => simp [insertFault]
  | cons g rest ih =>
    by_cases hlt : f.key < g.key
    · simp [insertFault, hlt]
    · by_cases heq : f.key = g.key
      · simp [insertFault, heq]
      · simp [insertFault, hlt, heq, ih]

theorem raise_raise (b : Block) (code : FaultCode) (w : Word) : (b.raise code w).raise code w = b.raise code w := by
  simp [Block.raise, insertFault_insertFault]

/-- Settles O44: the first read changes at most FAULTS, which the second leaves as the first did. -/
theorem hostReadsAreIdempotent : Obligations.HostReadsAreIdempotent := by
  intro s t u off rest hs hfirst hsecond
  have ht := step_read_admitted hs hfirst
  have htsched : t.sched = .host (.read .word off) :: rest := (step_next_of_cons hs hfirst).1
  have hu := step_read_admitted htsched hsecond
  subst hu
  cases h : regAt off with
  | some r =>
    rw [hostRead_mapped h] at ht ⊢
    subst ht
    simp [Block.hostReads, h]
  | none =>
    rw [hostRead_unmapped h] at ht ⊢
    subst ht
    simp [Block.hostReads, h, raise_raise]

/-- Settles O45: away from CMD a write carries no command word, and the bus ignores it. -/
theorem hostCannotWriteRegistersDirectly : Obligations.HostCannotWriteRegistersDirectly := by
  intro s off v rest hs halign hoff
  have hword : commandWord (.write .word off v) = none := by simp [commandWord, hoff]
  have hf : fetch s = none := by simp [fetch, hs, hword]
  have hwf : (Access.write .word off v).wellFormed = true := (wellFormed_iff _).mpr ⟨rfl, halign⟩
  rw [step_of_cons hs, hf, ← done_of_cons hs]
  simp [agentTurn, hs, hostTurn, hwf, hoff, hostWriteIgnored]

/-! ## Bytes of a register (R103) -/

/-- Settles O48: bit by bit, and by the weights of the appended bytes. -/
theorem serialisedBytesRunFromTheLowest : Obligations.SerialisedBytesRunFromTheLowest := by
  intro v b0 b1 b2 b3
  refine ⟨fun k n hn => ?_, ?_, ?_⟩
  · simp [wordByte, hn]
  · apply BitVec.eq_of_getLsbD_eq
    intro k hk
    simp only [ofWordBytes, wordByte, BitVec.getLsbD_append, BitVec.getLsbD_extractLsb']
    grind
  · have h0 := b0.isLt
    have h1 := b1.isLt
    have h2 := b2.isLt
    simp only [ofWordBytes, BitVec.toNat_append]
    rw [← Nat.shiftLeft_add_eq_or_of_lt h2, ← Nat.shiftLeft_add_eq_or_of_lt h1, ← Nat.shiftLeft_add_eq_or_of_lt h0]
    simp only [Nat.shiftLeft_eq]
    omega

/-! ## The places of the fields (R43 to R56) -/

/-- A field of n bits at the bottom of a register. -/
theorem extractLsb'_setWidth {n : Nat} (hn : n ≤ 32) (v : BitVec n) : (v.setWidth 32).extractLsb' 0 n = v := by
  apply BitVec.eq_of_getLsbD_eq
  intro k hk
  simp only [BitVec.getLsbD_extractLsb', BitVec.getLsbD_setWidth]
  grind

theorem status_fields (b : Block) : b.statusWord.getLsbD 0 = b.busy ∧ b.statusWord.getLsbD 1 = b.initDone ∧
    b.statusWord.extractLsb' 4 2 = modeBits b.mode ∧ b.statusWord &&& 0xFFFFFFCC#32 = 0#32 := by
  unfold Block.statusWord
  generalize b.mode = m, b.initDone = done, b.busy = busy
  cases m <;> cases done <;> cases busy <;> decide

theorem encres_fields (b : Block) : b.encresWord.extractLsb' 0 8 = b.encLow ∧
    b.encresWord.extractLsb' 8 8 = b.encHigh ∧ b.encresWord.getLsbD 16 = b.encFullOff ∧
    b.encresWord.getLsbD 17 = b.encFullOn ∧ b.encresWord &&& 0xFFFC0000#32 = 0#32 := by
  unfold Block.encresWord
  refine ⟨?low, ?high, ?off, ?on, ?rest⟩
  case rest =>
    apply setWidth_and_eq_zero
    have hmask : (0xFFFC0000#32).setWidth (1 + 1 + 8 + 8) = 0#(1 + 1 + 8 + 8) := by decide
    rw [hmask, BitVec.and_zero]
    rfl
  case off | on =>
    simp only [BitVec.getLsbD_setWidth, BitVec.getLsbD_append]
    simp
  all_goals
    apply BitVec.eq_of_getLsbD_eq
    intro k hk
    simp only [BitVec.getLsbD_extractLsb', BitVec.getLsbD_setWidth, BitVec.getLsbD_append]
    grind

theorem qres_fields (b : Block) : b.qresWord.getLsbD 0 = b.qIsHigh ∧ b.qresWord &&& 0xFFFFFFFE#32 = 0#32 := by
  unfold Block.qresWord
  cases b.qIsHigh <;> decide

theorem syncctl_fields (b : Block) : b.syncctlWord.getLsbD 0 = b.halt ∧ b.syncctlWord.getLsbD 1 = b.psrst ∧
    b.syncctlWord &&& 0xFFFFFFFC#32 = 0#32 := by
  unfold Block.syncctlWord
  cases b.halt <;> cases b.psrst <;> decide

/-- The fields of CTRL in a word (R49 to R51). -/
theorem ctrlWord_fields (wgm : BitVec 2) (cs : BitVec 3) (coma comb : BitVec 2) :
    ((comb ++ coma ++ 0#1 ++ cs ++ 0#2 ++ wgm).setWidth 32).extractLsb' 0 2 = wgm ∧
    ((comb ++ coma ++ 0#1 ++ cs ++ 0#2 ++ wgm).setWidth 32).extractLsb' 4 3 = cs ∧
    ((comb ++ coma ++ 0#1 ++ cs ++ 0#2 ++ wgm).setWidth 32).extractLsb' 8 2 = coma ∧
    ((comb ++ coma ++ 0#1 ++ cs ++ 0#2 ++ wgm).setWidth 32).extractLsb' 10 2 = comb ∧
    (comb ++ coma ++ 0#1 ++ cs ++ 0#2 ++ wgm).setWidth 32 &&& 0xFFFFF08C#32 = 0#32 := by
  refine ⟨?wgm, ?cs, ?coma, ?comb, ?rest⟩
  case rest =>
    apply setWidth_and_eq_zero
    have hmask : (0xFFFFF08C#32).setWidth (2 + 2 + 1 + 3 + 2 + 2) = 0#2 ++ 0#2 ++ 1#1 ++ 0#3 ++ 3#2 ++ 0#2 := by decide
    rw [hmask]
    simp only [BitVec.and_append]
    simp
  all_goals
    apply BitVec.eq_of_getLsbD_eq
    intro k hk
    simp only [BitVec.getLsbD_extractLsb', BitVec.getLsbD_setWidth, BitVec.getLsbD_append]
    grind

theorem ctrl_fields (b : Block) (t : Timer) :
    (b.readReg (.ctrl t)).extractLsb' 0 2 = b.wgm t ∧ (b.readReg (.ctrl t)).extractLsb' 4 3 = b.cs t ∧
      (b.readReg (.ctrl t)).extractLsb' 8 2 = b.com t .a ∧ (b.readReg (.ctrl t)).extractLsb' 10 2 = b.com t .b ∧
      b.readReg (.ctrl t) &&& 0xFFFFF08C#32 = 0#32 := by
  cases t with
  | aux1 | pri | aux2 => exact ctrlWord_fields _ _ _ _

/-- PINCTL holds DIR and LVL as PINOUT holds OUT and OE. -/
theorem pinctl_fields (b : Block) : b.pinctlWord.extractLsb' 0 6 = b.dir ∧ b.pinctlWord.extractLsb' 8 6 = b.lvl ∧
    b.pinctlWord &&& 0xFFFFC0C0#32 = 0#32 := by
  refine ⟨?_, ?_, pinPair_masked _ _⟩
  · apply pinReg_ext
    intro p
    rw [← pinPair_low b.lvl b.dir p]
    simp [pinBit, Block.pinctlWord]
  · apply pinReg_ext
    intro p
    rw [← pinPair_high b.lvl b.dir p]
    simp [pinBit, Block.pinctlWord]

/-- A 16-bit register, or an 8-bit one widened: its field at the bottom, and the bits above the timer's width 0. -/
theorem wide_fields {t : Timer} {v : BitVec 16} (h : t ≠ .pri → ∃ c : BitVec 8, v = c.setWidth 16) :
    (v.setWidth 32).extractLsb' 0 16 = v ∧
      v.setWidth 32 &&& (if t = .pri then 0xFFFF0000#32 else 0xFFFFFF00#32) = 0#32 := by
  refine ⟨extractLsb'_setWidth (by decide) v, setWidth_and_eq_zero ?_⟩
  by_cases ht : t = .pri
  · rw [if_pos ht]
    have hmask : (0xFFFF0000#32).setWidth 16 = 0#16 := by decide
    rw [hmask, BitVec.and_zero]
    rfl
  · obtain ⟨c, rfl⟩ := h ht
    rw [if_neg ht]
    have hmask : ((0xFFFFFF00#32).setWidth 16).setWidth 8 = 0#8 := by decide
    apply setWidth_and_eq_zero
    rw [hmask, BitVec.and_zero]
    rfl

theorem ocr_wide (b : Block) (s : SubChannel) {t : Timer} (ht : t ≠ .pri) : ∃ c : BitVec 8, b.ocr t s = c.setWidth 16 := by
  cases t with
  | pri => exact absurd rfl ht
  | aux1 | aux2 => exact ⟨_, rfl⟩

theorem cnt_wide (b : Block) {t : Timer} (ht : t ≠ .pri) : ∃ c : BitVec 8, b.cnt t = c.setWidth 16 := by
  cases t with
  | pri => exact absurd rfl ht
  | aux1 | aux2 => exact ⟨_, rfl⟩

/-- The two widenings of an auxiliary register, to 16 bits and to the word, are one. -/
theorem setWidth_16_32 (c : BitVec 8) : (c.setWidth 16).setWidth 32 = c.setWidth 32 := by
  apply BitVec.eq_of_toNat_eq
  simp

/-- Settles O47: register by register. -/
theorem registerFieldsStandAtTheirBits : Obligations.RegisterFieldsStandAtTheirBits := by
  intro b t
  have hmode : modeBits b.mode = match b.mode with | .unset => 0#2 | .two => 1#2 | .four => 2#2 | .rev => 3#2 := by
    cases b.mode <;> rfl
  obtain ⟨hbusy, hdone, hmodeField, hstatus⟩ := status_fields b
  refine ⟨⟨hbusy, hdone, hmodeField.trans hmode, hstatus⟩, encres_fields b, qres_fields b, syncctl_fields b,
    ctrl_fields b t, pinctl_fields b, fun s => wide_fields (ocr_wide b s), wide_fields (cnt_wide b), ?_,
    ⟨setWidth_16_32 _, setWidth_16_32 _, setWidth_16_32 _, rfl⟩, ⟨rfl, rfl, rfl, rfl⟩,
    ⟨setWidth_16_32 _, setWidth_16_32 _, setWidth_16_32 _, rfl⟩, ?_, rfl⟩
  · refine ⟨extractLsb'_setWidth (by decide) _, setWidth_and_eq_zero ?_⟩
    have hmask : (0xFFFFFF00#32).setWidth 8 = 0#8 := by decide
    rw [hmask, BitVec.and_zero]
    rfl
  · obtain ⟨hfield, hrest⟩ := wide_fields (t := .pri) (v := b.priTop) (fun h => absurd rfl h)
    exact ⟨hfield, hrest⟩

end Sys2Proof.Machine
end

section
/-! PROOFS. The latch clear (file 46) and the end states of WRITE (file 45). -/

namespace Sys2Proof.Machine

/-! ## Lists of micro-operations -/

@[simp] theorem performAll_nil (b : Block) : b.performAll [] = b := rfl

@[simp] theorem performAll_cons (b : Block) (op : MicroOp) (ops : List MicroOp) :
    b.performAll (op :: ops) = (b.perform op).performAll ops := rfl

theorem performAll_append (b : Block) (p q : List MicroOp) : b.performAll (p ++ q) = (b.performAll p).performAll q :=
  List.foldl_append

/-! ## The latch clear (R366, R367) -/

/-- Settles O35: the five micro-operations one after the other, on the two sub-channels and the two pins. -/
theorem latchClearEndState : Obligations.LatchClearEndState := by
  intro b tH tL s hne
  have hne' : tL ≠ tH := hne.symm
  refine ⟨?_, ?_, ?_, ?_, ?_, ?_, ?_, ?_, ?_⟩
  · simp [clearProgram]
  · simp [clearProgram, hne]
  · simp [clearProgram, hne']
  · simp [clearProgram]
  · simp [clearProgram]
  · simp [clearProgram]
  · intro p hpH hpL
    simp [clearProgram, hpH, hpL]
  · intro t s' hts
    by_cases hH : t = tH ∧ s' = s
    · obtain ⟨rfl, rfl⟩ := hH
      simp [clearProgram]
    · simp [clearProgram, hts, hH]
  · intro t
    simp [clearProgram]

/-! ## WRITE to an auxiliary-routed channel (R335) -/

theorem pinHigh_auxiliary {ch : Channel} (h : primaryRouted ch = false) (m : Mode) :
    pinHigh m ch = pin (timerHigh m) (channelSub ch) := by simp [pinHigh, h]

theorem pinLow_auxiliary {ch : Channel} (h : primaryRouted ch = false) (m : Mode) :
    pinLow m ch = pin (timerLow m) (channelSub ch) := by simp [pinLow, h]

theorem polarityOf_timerHigh (m : Mode) : polarityOf m (timerHigh m) = comNoninv := by cases m <;> rfl

theorem polarityOf_timerLow (m : Mode) : polarityOf m (timerLow m) = comInv := by cases m <;> rfl

/-- Every timer is PRI or plays a half. -/
theorem timer_role_cases (m : Mode) (t : Timer) : t = .pri ∨ t = timerHigh m ∨ t = timerLow m := by
  cases m <;> cases t <;> decide

/-- The COM, OCR, LVL and SAVED_COM that R335's table lists, path by path. -/
theorem AuxiliaryPath.halves {b : Block} {s : SubChannel} {code : Code} {p : List MicroOp}
    (path : AuxiliaryPath b.mode s code p) :
    ((b.performAll p).com (timerHigh b.mode) s =
      if code = 0xFFFF#16 ∨ code = 0x0000#16 ∨ (encodeDuty code).high = 0#8 then comOff else comNoninv) ∧
    ((b.performAll p).com (timerLow b.mode) s =
      if code = 0xFFFF#16 ∨ code = 0x0000#16 ∨ (encodeDuty code).low = 0#8 then comOff else comInv) ∧
    (pinBit (b.performAll p).lvl (pin (timerHigh b.mode) s) =
      if code = 0xFFFF#16 then true
      else if code = 0x0000#16 ∨ (encodeDuty code).high = 0#8 ∨ (encodeDuty code).low = 0#8 then false
      else pinBit b.lvl (pin (timerHigh b.mode) s)) ∧
    (pinBit (b.performAll p).lvl (pin (timerLow b.mode) s) =
      if code = 0xFFFF#16 ∨ code = 0x0000#16 ∨ (encodeDuty code).high = 0#8 ∨ (encodeDuty code).low = 0#8 then true
      else pinBit b.lvl (pin (timerLow b.mode) s)) ∧
    ((b.performAll p).ocr (timerHigh b.mode) s =
      if code = 0xFFFF#16 ∨ code = 0x0000#16 ∨ (encodeDuty code).high = 0#8 then b.ocr (timerHigh b.mode) s
      else ((encodeDuty code).high - 1#8).setWidth 16) ∧
    ((b.performAll p).ocr (timerLow b.mode) s =
      if code = 0xFFFF#16 ∨ code = 0x0000#16 ∨ (encodeDuty code).low = 0#8 then b.ocr (timerLow b.mode) s
      else ((encodeDuty code).low - 1#8).setWidth 16) ∧
    (b.performAll p).savedCom =
      if code = 0xFFFF#16 then b.savedCom
      else if code = 0x0000#16 ∨ (encodeDuty code).high = 0#8 then comOff
      else if (encodeDuty code).low = 0#8 then b.com (timerHigh b.mode) s
      else b.savedCom := by
  have hHL := timerHigh_ne_timerLow b.mode
  have hLH := hHL.symm
  have hHp := timerHigh_ne_pri b.mode
  have hLp := timerLow_ne_pri b.mode
  have hen : (if s = .a then s == .a else s == .b) = true := (enabled_iff s s).mpr rfl
  cases path with
  | on h => simp [h, hHL]
  | off h => simp [h, clearProgram, hHL, hLH]
  | highZero hon hoff hhigh hlow =>
    simp [hon, hoff, hhigh, hlow, hHL, hLp, hen, clearProgram, com_opConfig, ocr_setOcr, polarityOf_timerLow]
  | lowZero hon hoff hhigh hlow =>
    simp [hon, hoff, hhigh, hlow, hHL, hLH, hHp, hen, clearProgram, com_opConfig, ocr_setOcr, polarityOf_timerHigh]
  | duty hon hoff hhigh hlow =>
    simp [hon, hoff, hhigh, hlow, hHL, hHp, hLp, hen, com_opConfig, ocr_setOcr, polarityOf_timerHigh,
      polarityOf_timerLow]

theorem waveformOf_aux {t : Timer} (h : t ≠ .pri) : waveformOf t = wgmFpwm8 := by
  cases t with
  | pri => exact absurd rfl h
  | aux1 | aux2 => rfl

theorem selectOf_aux (m : Mode) {t : Timer} (h : t ≠ .pri) : selectOf m t = csOfRole (role m t) := by
  cases t with
  | pri => exact absurd rfl h
  | aux1 | aux2 => rfl

/-- Both CONFIGs of an unflagged code run, whatever they enable: WGM and CS of both auxiliary timers are written. -/
theorem AuxiliaryPath.control {b : Block} {s : SubChannel} {code : Code} {p : List MicroOp}
    (path : AuxiliaryPath b.mode s code p) (t : Timer) :
    ((b.performAll p).wgm t = if t = .pri ∨ code = 0xFFFF#16 ∨ code = 0x0000#16 then b.wgm t else wgmFpwm8) ∧
    ((b.performAll p).cs t =
      if t = .pri ∨ code = 0xFFFF#16 ∨ code = 0x0000#16 then b.cs t else csOfRole (role b.mode t)) := by
  have hpri : ∀ t, t = timerHigh b.mode ∨ t = timerLow b.mode → t ≠ .pri := by
    rintro t (rfl | rfl)
    · exact timerHigh_ne_pri b.mode
    · exact timerLow_ne_pri b.mode
  have hrole := timer_role_cases b.mode t
  cases path with
  | on h => simp [h]
  | off h => simp [h, clearProgram]
  | highZero hon hoff | lowZero hon hoff | duty hon hoff =>
    rcases hrole with rfl | h | h
    · simp [clearProgram, wgm_opConfig, cs_opConfig, (timerHigh_ne_pri _).symm, (timerLow_ne_pri _).symm]
    · simp [hon, hoff, clearProgram, wgm_opConfig, cs_opConfig, h, timerHigh_ne_timerLow, timerHigh_ne_pri,
        waveformOf_aux, selectOf_aux]
    · simp [hon, hoff, clearProgram, wgm_opConfig, cs_opConfig, h, timerLow_ne_pri, waveformOf_aux, selectOf_aux]

/-! ## What a whole WRITE leaves alone -/

/-- A relation that every micro-operation of a list keeps to, the whole list keeps to. -/
theorem performAll_related {R : Block → Block → Prop} (hrefl : ∀ b, R b b) (htrans : ∀ b c d, R b c → R c d → R b d)
    {ops : List MicroOp} (h : ∀ op ∈ ops, ∀ b : Block, R b (b.perform op)) (b : Block) : R b (b.performAll ops) := by
  induction ops generalizing b with
  | nil => exact hrefl b
  | cons op ops ih =>
    exact htrans b _ _ (h op List.mem_cons_self b) (ih (fun o ho => h o (List.mem_cons_of_mem _ ho)) _)

/-- ENC_STORE and QHI_STORE alone write the result registers (R46, R47). -/
theorem perform_results {op : MicroOp} (henc : ∀ c, op ≠ .encStore c) (hqhi : ∀ t half, op ≠ .qhiStore t half)
    (b : Block) : (b.perform op).encLow = b.encLow ∧ (b.perform op).encHigh = b.encHigh ∧
      (b.perform op).encFullOff = b.encFullOff ∧ (b.perform op).encFullOn = b.encFullOn ∧
      (b.perform op).qIsHigh = b.qIsHigh := by
  cases op with
  | encStore c => exact absurd rfl (henc c)
  | qhiStore t half => exact absurd rfl (hqhi t half)
  | setMode _ | syncHalt | syncClear | syncRelease | initFinish => exact ⟨rfl, rfl, rfl, rfl, rfl⟩
  | config _ _ _ | writeOcr _ _ _ | setDir _ | static _ _ | setLvl _ _ | saveCom _ | restoreCom _ => simp

/-- The registers that no WRITE touches: the counters, STATUS less BUSY, SYNCCTL, the result registers and FAULTS. -/
structure Block.writeFrame (b c : Block) : Prop where
  counts : ∀ t, c.cnt t = b.cnt t ∧ c.psc t = b.psc t
  status : c.initDone = b.initDone ∧ c.mode = b.mode ∧ c.halt = b.halt ∧ c.psrst = b.psrst
  results : c.encLow = b.encLow ∧ c.encHigh = b.encHigh ∧ c.encFullOff = b.encFullOff ∧ c.encFullOn = b.encFullOn ∧
    c.qIsHigh = b.qIsHigh
  faults : c.faults = b.faults

theorem writeFrame_refl (b : Block) : b.writeFrame b :=
  ⟨fun _ => ⟨rfl, rfl⟩, ⟨rfl, rfl, rfl, rfl⟩, ⟨rfl, rfl, rfl, rfl, rfl⟩, rfl⟩

theorem writeFrame_trans (b c d : Block) (h : b.writeFrame c) (h' : c.writeFrame d) : b.writeFrame d := by
  obtain ⟨hcounts, ⟨hdone, hmode, hhalt, hpsrst⟩, ⟨hlow, hhigh, hoff, hon, hq⟩, hfaults⟩ := h
  obtain ⟨hcounts', ⟨hdone', hmode', hhalt', hpsrst'⟩, ⟨hlow', hhigh', hoff', hon', hq'⟩, hfaults'⟩ := h'
  exact ⟨fun t => ⟨(hcounts' t).1.trans (hcounts t).1, (hcounts' t).2.trans (hcounts t).2⟩,
    ⟨hdone'.trans hdone, hmode'.trans hmode, hhalt'.trans hhalt, hpsrst'.trans hpsrst⟩,
    ⟨hlow'.trans hlow, hhigh'.trans hhigh, hoff'.trans hoff, hon'.trans hon, hq'.trans hq⟩, hfaults'.trans hfaults⟩

theorem writeFrame_performAll (b : Block) (m : Mode) (ch : Channel) (code : Code) :
    b.writeFrame (b.performAll (writeProgram m ch code)) := by
  refine performAll_related writeFrame_refl writeFrame_trans (fun op hop c => ?_) b
  obtain ⟨hset, hhalt, hclear, hrelease, hfinish, henc, hqhi⟩ := mem_writeProgram hop
  exact ⟨fun t => ⟨perform_cnt c op hclear t, perform_psc c op hclear t⟩,
    ⟨perform_initDone c op hfinish, perform_mode c op hset, perform_syncctl hhalt hrelease c⟩,
    perform_results henc hqhi c, perform_faults c op⟩

/-- A WRITE keeps the registers of every pin that is not its channel's (R433). -/
theorem samePin_performAll {m : Mode} {ch : Channel} {p : Pin} (hp : ¬ (p = pinHigh m ch ∨ p = pinLow m ch)) (b : Block)
    (code : Code) : b.samePin (b.performAll (writeProgram m ch code)) p := by
  refine performAll_related (R := fun b c => b.samePin c p) (fun b => ⟨rfl, rfl, rfl, rfl⟩) ?_
    (fun op hop c => perform_samePin (writeProgram_actsOn hop) hp c) b
  rintro b c d ⟨hcom, hocr, hdir, hlvl⟩ ⟨hcom', hocr', hdir', hlvl'⟩
  exact ⟨hcom'.trans hcom, hocr'.trans hocr, hdir'.trans hdir, hlvl'.trans hlvl⟩

/-- DIR of both pins is set first, and TOP is PRI's alone. -/
theorem AuxiliaryPath.dir_priTop {b : Block} {s : SubChannel} {code : Code} {p : List MicroOp}
    (path : AuxiliaryPath b.mode s code p) :
    (b.performAll p).dir =
      setPinBit (setPinBit b.dir (pin (timerHigh b.mode) s) true) (pin (timerLow b.mode) s) true ∧
    (b.performAll p).priTop = b.priTop := by
  cases path with
  | on | off => simp [clearProgram]
  | highZero | lowZero | duty =>
    simp [clearProgram, priTop_opConfig, timerHigh_ne_pri, timerLow_ne_pri]

/-- R335 for the block that a WRITE's micro-operations leave, the sequencer's registers as at its end. -/
theorem auxiliaryWriteEnd_performAll {b : Block} {ch : Channel} (code : Code) (hr : primaryRouted ch = false)
    (hm : fourChannel b.mode = true) : AuxiliaryWriteEnd b { b.performAll (writeProgram b.mode ch code) with
      cmdreg := encode (.write ch code), upc := BitVec.ofNat 4 (auxiliaryLength code), busy := false } ch code := by
  have path : AuxiliaryPath b.mode (channelSub ch) code (writeProgram b.mode ch code) := by
    rw [writeProgram_auxiliary hr hm]
    exact auxiliaryProgram_path _ _ _
  obtain ⟨hcounts, ⟨hdone, hmode, hhalt, hpsrst⟩, hresults, hfaults⟩ := writeFrame_performAll b b.mode ch code
  obtain ⟨hcomH, hcomL, hlvlH, hlvlL, hocrH, hocrL, hsaved⟩ := path.halves
  obtain ⟨hdir, htop⟩ := path.dir_priTop
  have hpinH := pinHigh_auxiliary hr b.mode
  have hpinL := pinLow_auxiliary hr b.mode
  exact
    { comHigh := by rw [com_ofSequencer, hcomH]
      comLow := by rw [com_ofSequencer, hcomL]
      lvlHigh := by rw [hpinH]; exact hlvlH
      lvlLow := by rw [hpinL]; exact hlvlL
      ocrHigh := by rw [ocr_ofSequencer, hocrH]
      ocrLow := by rw [ocr_ofSequencer, hocrL]
      savedCom := hsaved
      dir := fun p => by
        rw [hpinH, hpinL, hdir]
        by_cases hH : p = pin (timerHigh b.mode) (channelSub ch) <;>
          by_cases hL : p = pin (timerLow b.mode) (channelSub ch) <;> simp [hH, hL]
      wgm := fun t => by rw [wgm_ofSequencer, (path.control t).1]
      cs := fun t => by rw [cs_ofSequencer, (path.control t).2]
      otherSub := fun t s hts => by
        have hp : ¬ (pin t s = pinHigh b.mode ch ∨ pin t s = pinLow b.mode ch) := by
          rw [hpinH, hpinL, pin_inj, pin_inj]
          rcases hts with rfl | hs
          · simp [(timerHigh_ne_pri _).symm, (timerLow_ne_pri _).symm]
          · simp [hs]
        obtain ⟨hcom, hocr, -, -⟩ := samePin_performAll hp b code
        rw [com_ofSequencer, ocr_ofSequencer]
        simpa using And.intro hcom hocr
      otherLvl := fun p hH hL => by
        obtain ⟨-, -, -, hlvl⟩ := samePin_performAll (not_or.mpr ⟨hH, hL⟩) b code
        exact hlvl
      counts := fun t => by rw [cnt_ofSequencer, psc_ofSequencer]; exact hcounts t
      status := ⟨rfl, hdone, hmode, hhalt, hpsrst⟩
      results := hresults
      rest := ⟨htop, hfaults, rfl, rfl⟩ }

/-- The run of a WRITE after INIT. -/
theorem execTurns_write {s : State} {ch : Channel} {code : Code} {rest : List Turn} (hb : s.block.busy = false)
    (hdone : s.block.initDone = true) (hs : s.sched = commandTurns (.write ch code) s.block.mode ++ rest) :
    execTurns (.write ch code) (commandTurns (.write ch code) s.block.mode).length s =
      .next { s with sched := rest, block := { s.block.performAll (writeProgram s.block.mode ch code) with
        cmdreg := encode (.write ch code), upc := BitVec.ofNat 4 (writeProgram s.block.mode ch code).length
        busy := false } } := by
  obtain ⟨h, -⟩ := everyAcceptedCommandRunsItsMicroProgram (.write ch code) s rest hb (by simp [Instr.isInit])
    (fun _ _ _ => hdone) hs
  exact h

/-- Settles O27: the run performs the path's micro-operations, and R335's table is read off them. -/
theorem auxiliaryWriteEndsAsTabulated : Obligations.AuxiliaryWriteEndsAsTabulated := by
  intro s ch code rest hb hdone hm hr hs
  have hlen : (writeProgram s.block.mode ch code).length = auxiliaryLength code := by
    rw [writeProgram_auxiliary hr hm]
    exact (auxiliaryProgram_path _ _ _).length_eq
  have hturns : (commandTurns (.write ch code) s.block.mode).length = auxiliaryLength code + 1 := by
    simp [commandTurns, uprog, hlen]
  have hrun := execTurns_write hb hdone hs
  rw [hturns, hlen] at hrun
  exact ⟨_, hrun, rfl, rfl, rfl, auxiliaryWriteEnd_performAll code hr hm⟩

/-! ## WRITE to a primary-routed channel (R336) -/

/-- Settles O28: the three paths' micro-operations, performed on PRI and its pin. -/
theorem primaryWriteEndsAsTabulated : Obligations.PrimaryWriteEndsAsTabulated := by
  intro s ch code rest sub hb hdone hch hs
  obtain ⟨hr, rfl⟩ : primaryRouted ch = true ∧ channelSub ch = sub := by
    rcases hch with ⟨rfl, rfl⟩ | ⟨rfl, rfl⟩
    · exact ⟨rfl, rfl⟩
    · exact ⟨rfl, rfl⟩
  have path := primaryProgram_path (channelSub ch) code
  refine ⟨_, execTurns_write hb hdone hs, ?_⟩
  rw [writeProgram_primary hr]
  generalize primaryProgram (channelSub ch) code = p at path
  cases path with
  | on h =>
    subst h
    refine ⟨fun _ => ?_, fun e => absurd e (by decide), fun e => absurd rfl e, fun _ => ?_⟩
    · simp [Block.setCom, Block.onTimer, Block.setDir, Block.setLvl]
    · simp [Block.setCom, Block.onTimer]
  | off h =>
    subst h
    refine ⟨fun e => absurd e (by decide), fun _ => ?_, fun _ e => absurd rfl e, fun _ => ?_⟩
    · simp [Block.setCom, Block.onTimer, Block.setDir, Block.setLvl]
    · simp [Block.setCom, Block.onTimer]
  | duty hon hoff =>
    refine ⟨fun e => absurd e hon, fun e => absurd e hoff, fun _ _ => ?_, fun hconf => ?_⟩
    · cases channelSub ch <;>
        simp [Block.opConfig, TimerRegs.config, Block.setOcr, Block.onTimer, Block.setDir, TimerRegs.setCom,
          TimerRegs.setOcr, csDiv1, wgmFpwmTop]
    · obtain ⟨hwgm, hcs, htop⟩ := hconf
      rw [hwgm, hcs, htop]
      cases channelSub ch <;> exact ⟨rfl, rfl, rfl⟩

/-! ## OFF (R337) -/

theorem tmr_pinHigh_auxiliary {ch : Channel} (h : primaryRouted ch = false) (m : Mode) :
    tmr (pinHigh m ch) = timerHigh m ∧ tmr (pinLow m ch) = timerLow m := by
  rw [pinHigh_auxiliary h, pinLow_auxiliary h, tmr_pin, tmr_pin]
  exact ⟨rfl, rfl⟩

theorem tmr_pin_primary {ch : Channel} (h : primaryRouted ch = true) (m : Mode) :
    tmr (pinHigh m ch) = .pri ∧ tmr (pinLow m ch) = .pri := by
  simp [pinHigh, pinLow, h]

/-- Settles O30: the path of 0x0000 leaves COM OFF on each sub-channel of the channel. -/
theorem offDisconnectsTheChannel : Obligations.OffDisconnectsTheChannel := by
  intro s ch rest hb hdone hv hs
  refine ⟨_, execTurns_write hb hdone hs, ?_⟩
  cases hr : primaryRouted ch with
  | true =>
    obtain ⟨hH, hL⟩ := tmr_pin_primary hr s.block.mode
    have hprog : writeProgram s.block.mode ch 0x0000#16 =
        [.setDir (pin .pri (channelSub ch)), .static (pin .pri (channelSub ch)) false] := writeProgram_primary hr _ _
    simp only [hH, hL, com_ofSequencer, hprog]
    simp
  | false =>
    have hm : fourChannel s.block.mode = true := by simpa [validChannel, hr] using hv
    obtain ⟨hH, hL⟩ := tmr_pinHigh_auxiliary hr s.block.mode
    have hend := auxiliaryWriteEnd_performAll (b := s.block) 0x0000#16 hr hm
    have hcomH := hend.comHigh
    have hcomL := hend.comLow
    rw [com_ofSequencer] at hcomH hcomL
    simp only [hH, hL, com_ofSequencer, hcomH, hcomL]
    simp

end Sys2Proof.Machine
end

section
/-! PROOFS. The pin levels during a latch clear (R369), whatever ticks fall in it. -/

namespace Sys2Proof.Machine

/-! ## Ticks and pins -/

@[simp] theorem ticks_com (n : Nat) (b : Block) (t : Timer) (s : SubChannel) : (Block.ticks n b).com t s = b.com t s := by
  induction n generalizing b with
  | zero => rfl
  | succ n ih => rw [Block.ticks, ih, com_tick]

@[simp] theorem ticks_dir (n : Nat) (b : Block) : (Block.ticks n b).dir = b.dir := by
  induction n generalizing b with
  | zero => rfl
  | succ n ih => rw [Block.ticks, ih, tick_dir]

@[simp] theorem ticks_lvl (n : Nat) (b : Block) : (Block.ticks n b).lvl = b.lvl := by
  induction n generalizing b with
  | zero => rfl
  | succ n ih => rw [Block.ticks, ih, tick_lvl]

@[simp] theorem ticks_savedCom (n : Nat) (b : Block) : (Block.ticks n b).savedCom = b.savedCom := by
  induction n generalizing b with
  | zero => rfl
  | succ n ih => rw [Block.ticks, ih, tick_savedCom]

/-- No tick moves a driven pin whose compare output is disconnected (R188). -/
theorem out_ticks_static {b : Block} {t : Timer} {s : SubChannel} (hdir : pinBit b.dir (pin t s) = true)
    (h2 : b.com t s ≠ 2#2) (h3 : b.com t s ≠ 3#2) (n : Nat) :
    (Block.ticks n b).out (pin t s) = pinBit b.lvl (pin t s) := by
  rw [out_static (by rwa [ticks_dir]) (by rwa [ticks_com]) (by rwa [ticks_com]), ticks_lvl]

theorem out_ticks_off {b : Block} {t : Timer} {s : SubChannel} (hdir : pinBit b.dir (pin t s) = true)
    (hcom : b.com t s = comOff) (n : Nat) : (Block.ticks n b).out (pin t s) = pinBit b.lvl (pin t s) :=
  out_ticks_static hdir (by rw [hcom]; decide) (by rw [hcom]; decide) n

/-- A driven pin's OUT is a function of its own registers and its timer's count (R187, R188). -/
theorem out_congr {b c : Block} {t : Timer} {s : SubChannel} (hdir : pinBit b.dir (pin t s) = true)
    (hdir' : pinBit c.dir (pin t s) = true) (hlvl : pinBit c.lvl (pin t s) = pinBit b.lvl (pin t s))
    (hcom : c.com t s = b.com t s) (hocr : c.ocr t s = b.ocr t s) (hcnt : c.cnt t = b.cnt t) :
    c.out (pin t s) = b.out (pin t s) := by
  rw [out_driven hdir, out_driven hdir', wave_eq, wave_eq, hlvl, hcom, hocr, hcnt]

/-! ## The trace -/

/-- Settles O36: after each micro-operation both pins' COM and LVL are known, and a disconnected pin shows its LVL. -/
theorem latchClearPinTrace : Obligations.LatchClearPinTrace := by
  intro b b1 b2 b3 b4 b5 tH tL s n1 n2 n3 n4 hne hdirH hdirL h1 h2 h3 h4 h5
  have hne' : tL ≠ tH := hne.symm
  have hd1 : b1.dir = b.dir := by simp [h1]
  have hd2 : b2.dir = b.dir := by simp [h2, hd1]
  have hd3 : b3.dir = b.dir := by simp [h3, hd2]
  have hd4 : b4.dir = b.dir := by simp [h4, hd3]
  have hd5 : b5.dir = b.dir := by simp [h5, hd4]
  have hsaved : b4.savedCom = b.com tH s := by simp [h4, h3, h2, h1]
  have hcomL2 : b2.com tL s = b.com tL s := by simp [h2, h1, hne']
  have hoffH2 : b2.com tH s = comOff ∧ pinBit b2.lvl (pin tH s) = false := by simp [h2]
  have hoffH3 : b3.com tH s = comOff ∧ pinBit b3.lvl (pin tH s) = false := by simp [h3, hne, hoffH2]
  have hoffL3 : b3.com tL s = comOff ∧ pinBit b3.lvl (pin tL s) = false := by simp [h3]
  have hoffH4 : b4.com tH s = comOff ∧ pinBit b4.lvl (pin tH s) = false := by simp [h4, hne, hoffH3]
  have hoffL4 : b4.com tL s = comOff ∧ pinBit b4.lvl (pin tL s) = true := by simp [h4, hoffL3]
  have hcomH5 : b5.com tH s = b.com tH s := by simp [h5, hsaved]
  have hlvlH5 : pinBit b5.lvl (pin tH s) = false := by simp [h5, hoffH4]
  have hoffL5 : b5.com tL s = comOff ∧ pinBit b5.lvl (pin tL s) = true := by simp [h5, hne', hoffL4]
  refine ⟨⟨?_, ?_⟩, ⟨?_, ?_, ?_⟩, fun n => ⟨?_, ?_⟩, fun n => ⟨?_, ?_⟩, ?_, hcomH5, fun n => ?_⟩
  · exact out_congr hdirH (by rwa [hd1]) (by simp [h1]) (by simp [h1]) (by simp [h1]) (by simp [h1])
  · exact out_congr hdirL (by rwa [hd1]) (by simp [h1]) (by simp [h1]) (by simp [h1]) (by simp [h1])
  · exact fun n => (out_ticks_off (by rwa [hd2]) hoffH2.1 n).trans hoffH2.2
  · exact out_congr (by rwa [ticks_dir, hd1]) (by rwa [hd2]) (by simp [h2, hne']) (by simp [h2, hne']) (by simp [h2])
      (by simp [h2])
  · intro hn2 hn3 n
    rw [← hcomL2] at hn2 hn3
    rw [out_ticks_static (by rwa [hd2]) hn2 hn3, out_static (by rwa [hd2]) hn2 hn3]
  · exact (out_ticks_off (by rwa [hd3]) hoffH3.1 n).trans hoffH3.2
  · exact (out_ticks_off (by rwa [hd3]) hoffL3.1 n).trans hoffL3.2
  · exact (out_ticks_off (by rwa [hd4]) hoffH4.1 n).trans hoffH4.2
  · exact (out_ticks_off (by rwa [hd4]) hoffL4.1 n).trans hoffL4.2
  · rw [out_driven (by rwa [hd5]), hlvlH5]
  · exact (out_ticks_off (by rwa [hd5]) hoffL5.1 n).trans hoffL5.2

end Sys2Proof.Machine
end

section
/-! PROOFS. Schedules (R440, R441): that a command's end state does not depend on the interleaving, and that a command in
progress completes. -/

namespace Sys2Proof.Machine

/-! ## Steps that are taken -/

/-- Under R32 every turn but an unadmitted access has a step. -/
theorem step_next_of_harmless {s : State} {turn : Turn} {rest : List Turn} (hs : s.sched = turn :: rest)
    (h : s.block.sequencerOk) (hturn : turn.harmless = true) : ∃ t, step s = .next t := by
  cases hstep : step s with
  | next t => exact ⟨t, rfl⟩
  | fault r => exact absurd hstep (step_ne_fault_of_cons hs h r)
  | refused r =>
    obtain ⟨-, x, rfl, hx⟩ := (onlyUnadmittedAccessesAreRefused s turn rest r hs).mp hstep
    exact absurd ((wellFormed_iff x).mp hturn) hx

theorem harmless_of_quiet {turn : Turn} (h : turn.quiet = true) : turn.harmless = true := by
  cases turn with
  | host x =>
    cases x with
    | read size off => exact h
    | write size off v => cases h
  | sequencer | tick => rfl
  | reset => cases h

/-- An enabled sequencer's turn performs the next micro-operation of the command in progress. -/
theorem step_sequencer_busy {s : State} {rest : List Turn} {i : Instr} {op : MicroOp} (hs : s.sched = .sequencer :: rest)
    (hbusy : s.block.busy = true) (hcmd : decode s.block.cmdreg = .command i)
    (hop : (uprog i s.block.mode)[s.block.upc.toNat]? = some op) :
    step s = .next { s with sched := rest, block := s.block.afterOp op (uprog i s.block.mode).length } :=
  (step_eq_exec_sequencer hs hbusy hcmd).trans (exec_sequencer_performs hs hbusy hop)

/-! ## All but the counters and FAULTS -/

/-- The block less what ticks write, with FAULTS taken to be `l`: what R440 says the schedule does not touch. -/
def Block.settled (b : Block) (l : List ModelFault) : Block := { b.withoutCounts with faults := l }

/-- No micro-operation reads FAULTS. -/
theorem perform_ofFaults (b : Block) (op : MicroOp) (l : List ModelFault) :
    ({ b with faults := l } : Block).perform op = { b.perform op with faults := l } := by
  cases op with
  | config t => cases t <;> rfl
  | writeOcr t => cases t <;> rfl
  | static p v =>
    simp only [perform_static, Block.setCom]
    generalize tmr p = t
    cases t <;> rfl
  | saveCom p =>
    simp only [perform_saveCom, Block.opSaveCom]
    generalize tmr p = t
    cases t <;> rfl
  | restoreCom p =>
    simp only [perform_restoreCom, Block.setCom]
    generalize tmr p = t
    cases t <;> rfl
  | _ => rfl

theorem settled_perform (b : Block) (op : MicroOp) (l : List ModelFault) :
    ((b.settled l).perform op).settled l = (b.perform op).settled l := by
  have h : ((b.settled l).perform op).withoutCounts =
      { (b.withoutCounts.perform op).withoutCounts with faults := l } := by
    rw [Block.settled, perform_ofFaults]
    rfl
  rw [Block.settled, h, perform_withoutCounts]
  rfl

/-- Such blocks agree in the sequencer's registers and MODE. -/
theorem sequencer_of_settled {b c : Block} {l : List ModelFault} (h : b.settled l = c.settled l) :
    b.cmdreg = c.cmdreg ∧ b.upc = c.upc ∧ b.busy = c.busy ∧ b.mode = c.mode := by
  have hcmd := congrArg Block.cmdreg h
  have hupc := congrArg Block.upc h
  have hbusy := congrArg Block.busy h
  have hmode := congrArg Block.mode h
  exact ⟨hcmd, hupc, hbusy, hmode⟩

/-- A micro-operation on blocks that differ in counters and FAULTS only. -/
theorem settled_afterOp {b c : Block} {l : List ModelFault} (h : b.settled l = c.settled l) (op : MicroOp) (n : Nat) :
    (b.afterOp op n).settled l = (c.afterOp op n).settled l := by
  have hperform : (b.perform op).settled l = (c.perform op).settled l := by
    rw [← settled_perform b, h, settled_perform]
  obtain ⟨-, hupc, hbusy, -⟩ := sequencer_of_settled h
  have hafter : ∀ b : Block, (b.afterOp op n).settled l = { (b.perform op).settled l with
      upc := BitVec.ofNat 4 (b.upc.toNat + 1), busy := busyAfterStep (b.upc.toNat + 1) n b.busy } := fun _ => rfl
  rw [hafter, hafter, hperform, hupc, hbusy]

/-- A tick or an admitted read leaves all but the counters and FAULTS. -/
theorem step_quiet {s : State} {turn : Turn} {rest : List Turn} (hs : s.sched = turn :: rest) (h : s.block.sequencerOk)
    (hquiet : turn.quiet = true) (hturn : turn ≠ .sequencer) (l : List ModelFault) :
    ∃ t, step s = .next t ∧ t.sched = rest ∧ t.block.settled l = s.block.settled l := by
  obtain ⟨t, hstep⟩ := step_next_of_harmless hs h (harmless_of_quiet hquiet)
  obtain ⟨hsched, -, hb⟩ := step_next_of_cons hs hstep
  refine ⟨t, hstep, hsched, ?_⟩
  generalize t.block = c at hb
  cases hb with
  | same | fault => rfl
  | tick => rw [Block.settled, withoutCounts_tick, Block.settled]
  | reset e => rw [e] at hquiet; cases hquiet
  | accept w i hw e => rw [e] at hquiet; cases hquiet
  | op i o e => exact absurd e hturn

/-- The sequencer's turn on two blocks that differ in counters and FAULTS only. -/
theorem step_sequencer_settled {s v : State} {rest rest' : List Turn} (hs : s.sched = .sequencer :: rest)
    (hv : v.sched = .sequencer :: rest') (h : s.block.sequencerOk) {l : List ModelFault}
    (hsame : s.block.settled l = v.block.settled l) :
    ∃ t u, step s = .next t ∧ step v = .next u ∧ t.sched = rest ∧ u.sched = rest' ∧
      t.block.settled l = u.block.settled l ∧ u.block.faults = v.block.faults := by
  obtain ⟨hcmd, hupc, hbusy, hmode⟩ := sequencer_of_settled hsame
  cases hb : s.block.busy with
  | false =>
    exact ⟨_, _, (sequencerTurn_idle hs hb).2, (sequencerTurn_idle hv (hbusy ▸ hb)).2, rfl, rfl, hsame, rfl⟩
  | true =>
    obtain ⟨i, op, hi, hop⟩ := sequencerOk_finds h hb
    refine ⟨_, _, step_sequencer_busy hs hb hi hop,
      step_sequencer_busy (op := op) hv (hbusy ▸ hb) (hcmd ▸ hi) (hmode ▸ hupc ▸ hop), rfl, rfl, ?_, ?_⟩
    · rw [← hmode]
      exact settled_afterOp hsame op _
    · simp

/-- Two runs from blocks that differ in counters and FAULTS only: the whole schedule, and its sequencer's turns alone. -/
theorem runs_settled {l : List ModelFault} (turns : List Turn) {s v : State} (hs : s.sched = turns)
    (hv : v.sched = List.replicate (turns.countP (· == .sequencer)) .sequencer) (h : s.block.sequencerOk)
    (hquiet : turns.all Turn.quiet = true) (hsame : s.block.settled l = v.block.settled l) :
    ∃ t u, Host.Core.run Sys2Proof.core turns.length s = .next t ∧
      Host.Core.run Sys2Proof.core (turns.countP (· == .sequencer)) v = .next u ∧
      t.block.settled l = u.block.settled l ∧ u.block.faults = v.block.faults := by
  induction turns generalizing s v with
  | nil => exact ⟨s, v, rfl, rfl, hsame, rfl⟩
  | cons turn rest ih =>
    rw [List.all_cons, Bool.and_eq_true] at hquiet
    obtain ⟨hq, hrest⟩ := hquiet
    by_cases hturn : turn = .sequencer
    · subst hturn
      have hcount : (Turn.sequencer :: rest).countP (· == .sequencer) = rest.countP (· == .sequencer) + 1 := by simp
      rw [hcount] at hv ⊢
      obtain ⟨s', v', hsteps, hstepv, hs', hv', hsame', hfaults'⟩ := step_sequencer_settled hs hv h hsame
      have hok : s'.block.sequencerOk := everyStepKeepsTheSequencerInvariant s s' h hsteps
      obtain ⟨t, u, ht, hu, htu, hfaults⟩ := ih hs' hv' hok hrest hsame'
      exact ⟨t, u, (run_succ _ hsteps).trans ht, (run_succ _ hstepv).trans hu, htu, hfaults.trans hfaults'⟩
    · have hcount : (turn :: rest).countP (· == .sequencer) = rest.countP (· == .sequencer) := by simp [hturn]
      rw [hcount] at hv ⊢
      obtain ⟨s', hstep, hs', hkeep⟩ := step_quiet hs h hq hturn l
      have hok : s'.block.sequencerOk := everyStepKeepsTheSequencerInvariant s s' h hstep
      obtain ⟨t, u, ht, hu, htu, hfaults⟩ := ih hs' hv hok hrest (hkeep.trans hsame)
      exact ⟨t, u, (run_succ _ hstep).trans ht, hu, htu, hfaults⟩

/-- Settles O58: FAULTS is what it was on the run of the sequencer's turns alone. -/
theorem endStateDoesNotDependOnTheSchedule : Obligations.EndStateDoesNotDependOnTheSchedule := by
  intro s turns h hquiet
  obtain ⟨t, u, ht, hu, htu, hfaults⟩ := runs_settled (l := s.block.faults) (s := s.withTurns turns)
    (v := s.withTurns (List.replicate (turns.countP (· == .sequencer)) .sequencer)) turns rfl rfl h hquiet rfl
  refine ⟨t, u, ht, hu, htu.trans ?_⟩
  have hf : u.block.faults = s.block.faults := hfaults
  rw [Block.settled, ← hf]
  rfl

/-! ## Completion (R441) -/

/-- A harmless turn other than the sequencer's leaves the command in progress as it was (R388). -/
theorem step_harmless_keeps {s t : State} {turn : Turn} {rest : List Turn} (hs : s.sched = turn :: rest)
    (hstep : step s = .next t) (hturn : turn.harmless = true) (hne : turn ≠ .sequencer) (hbusy : s.block.busy = true) :
    t.block.cmdreg = s.block.cmdreg ∧ t.block.upc = s.block.upc ∧ t.block.mode = s.block.mode := by
  obtain ⟨-, -, hb⟩ := step_next_of_cons hs hstep
  generalize t.block = c at hb
  cases hb with
  | same | fault => exact ⟨rfl, rfl, rfl⟩
  | tick => simp
  | reset e => rw [e] at hturn; cases hturn
  | accept w i hw e hidle => rw [hbusy] at hidle; cases hidle
  | op i o e => exact absurd e hne

/-- The micro-operations that are left of the command in CMDREG are at most `n`. -/
def Block.leftAtMost (b : Block) (n : Nat) : Prop :=
  ∀ i, decode b.cmdreg = .command i → (uprog i b.mode).length - b.upc.toNat ≤ n

/-- With enough sequencer's turns among them, harmless turns reach the end of the command in progress. -/
theorem completes_of_leftAtMost (turns : List Turn) {s : State} (hs : s.sched = turns) (h : s.block.sequencerOk)
    (hturns : turns.all Turn.harmless = true) (hleft : s.block.leftAtMost (turns.countP (· == .sequencer))) :
    ∃ k t, k ≤ turns.length ∧ Host.Core.run Sys2Proof.core k s = .next t ∧ t.block.busy = false := by
  induction turns generalizing s with
  | nil =>
    obtain ⟨i, hcmd, -, hiff⟩ := h
    have hdone := hleft i hcmd
    refine ⟨0, s, Nat.le_refl 0, rfl, Bool.eq_false_iff.mpr fun hb => ?_⟩
    have := hiff.mp hb
    simp at hdone
    omega
  | cons turn rest ih =>
    rw [List.all_cons, Bool.and_eq_true] at hturns
    obtain ⟨hturn, hrest⟩ := hturns
    cases hb : s.block.busy with
    | false => exact ⟨0, s, Nat.zero_le _, rfl, hb⟩
    | true =>
      have next : ∃ t, step s = .next t ∧ t.sched = rest ∧ t.block.leftAtMost (rest.countP (· == .sequencer)) := by
        by_cases hseq : turn = .sequencer
        · subst hseq
          obtain ⟨i, op, hcmd, hop⟩ := sequencerOk_finds h hb
          refine ⟨_, step_sequencer_busy hs hb hcmd hop, rfl, fun j hj => ?_⟩
          obtain rfl : j = i := by
            rw [afterOp_cmdreg, perform_cmdreg, hcmd] at hj
            exact (Decoded.command.inj hj).symm
          have hprog : uprog j (s.block.afterOp op (uprog j s.block.mode).length).mode = uprog j s.block.mode :=
            uprog_perform (List.mem_of_getElem? hop) s.block rfl
          have hle := hleft j hcmd
          rw [List.countP_cons_of_pos (by simp)] at hle
          rw [hprog, afterOp_upc_toNat hop]
          omega
        · obtain ⟨t, hstep⟩ := step_next_of_harmless hs h hturn
          obtain ⟨hcmd, hupc, hmode⟩ := step_harmless_keeps hs hstep hturn hseq hb
          refine ⟨t, hstep, (step_next_of_cons hs hstep).1, fun i hi => ?_⟩
          rw [hcmd] at hi
          rw [hupc, hmode]
          simpa [hseq] using hleft i hi
      obtain ⟨t, hstep, hsched, hleft'⟩ := next
      obtain ⟨k, u, hk, hrun, hu⟩ := ih hsched (everyStepKeepsTheSequencerInvariant s t h hstep) hrest hleft'
      exact ⟨k + 1, u, Nat.succ_le_succ hk, (run_succ k hstep).trans hrun, hu⟩

/-- Settles O59: the micro-operations left are those of the command in progress. -/
theorem everyAcceptedCommandCompletes : Obligations.EveryAcceptedCommandCompletes := by
  intro s i turns h hrun hturns hleft
  refine completes_of_leftAtMost turns (s := s.withTurns turns) rfl h hturns fun j hj => ?_
  obtain rfl := running_unique hrun.2 (i := i) ⟨hrun.1, hj⟩
  exact hleft

/-! ## Turns not yet reached -/

/-- The answer with its schedule replaced. -/
def Result.withTurns (turns : List Turn) : Result → Result
  | .next t => .next (t.withTurns turns)
  | .fault r => .fault r
  | .refused r => .refused r

theorem transition_withTurns (w : Word) (c : Option FaultCode) (p : List MicroOp) (s : State) (turn : Turn)
    (rest rest' : List Turn) : transition w c p (s.withTurns (turn :: rest')) =
      Result.withTurns rest' (transition w c p (s.withTurns (turn :: rest))) := by
  have hissue : issue w c p (s.withTurns (turn :: rest')) = (issue w c p (s.withTurns (turn :: rest))).withTurns rest' := by
    cases hb : s.block.busy with
    | true => simp only [issue, withTurns_block, hb, if_true]; rfl
    | false => cases c <;> simp only [issue, withTurns_block, hb, Bool.false_eq_true, if_false] <;> rfl
  cases turn with
  | sequencer =>
    cases hb : s.block.busy with
    | true =>
      simp only [transition, withTurns_sched, sequencerStep, withTurns_block, hb, if_true]
      cases p[s.block.upc.toNat]? <;> rfl
    | false =>
      simp only [transition, withTurns_sched, sequencerStep, withTurns_block, hb, Bool.false_eq_true, if_false]
      rfl
  | host x | tick | reset => simp only [transition, withTurns_sched, hissue, Result.withTurns]

theorem agentTurn_withTurns (s : State) (turn : Turn) (rest rest' : List Turn) : agentTurn (s.withTurns (turn :: rest')) =
    Result.withTurns rest' (agentTurn (s.withTurns (turn :: rest))) := by
  cases turn with
  | host x =>
    simp only [agentTurn, withTurns_sched, hostTurn]
    split
    · cases x with
      | read size off =>
        simp only [hostRead, withTurns_block]
        split <;> rfl
      | write size off v =>
        simp only [issueReserved, withTurns_block]
        split
        · split <;> rfl
        · rfl
    · rfl
  | sequencer =>
    cases hb : s.block.busy with
    | true => simp only [agentTurn, withTurns_sched, idleSequencer, withTurns_block, hb, if_true]; rfl
    | false =>
      simp only [agentTurn, withTurns_sched, idleSequencer, withTurns_block, hb, Bool.false_eq_true, if_false]
      rfl
  | tick | reset => rfl

/-- A step does not read the turns after its own. -/
theorem step_withTurns (s : State) (turn : Turn) (rest rest' : List Turn) : step (s.withTurns (turn :: rest')) =
    Result.withTurns rest' (step (s.withTurns (turn :: rest))) := by
  have hfetch : fetch (s.withTurns (turn :: rest')) = fetch (s.withTurns (turn :: rest)) := by cases turn <;> rfl
  rw [step_of_cons (withTurns_sched ..), step_of_cons (withTurns_sched ..), hfetch]
  cases fetch (s.withTurns (turn :: rest)) with
  | some i =>
    simp only [exec_eq_transition, withTurns_block]
    exact transition_withTurns ..
  | none => exact agentTurn_withTurns s turn rest rest'

/-- A run that goes on to a next state has taken its first step. -/
theorem run_succ_inv {k : Nat} {s t : State} (h : Host.Core.run Sys2Proof.core (k + 1) s = .next t) :
    ∃ s', step s = .next s' ∧ Host.Core.run Sys2Proof.core k s' = .next t := by
  have hmatch := (Host.Core.run.eq_2 Sys2Proof.core s k).symm.trans h
  cases hstep : step s with
  | next s' => exact ⟨s', rfl, (run_succ k hstep).symm.trans h⟩
  | fault r =>
    rw [show Sys2Proof.core.step s = .fault r from hstep] at hmatch
    cases hmatch
  | refused r =>
    rw [show Sys2Proof.core.step s = .refused r from hstep] at hmatch
    cases hmatch

theorem withTurns_of_sched {s : State} {turns : List Turn} (h : s.sched = turns) : s.withTurns turns = s := by
  subst h
  rfl

/-- A run of k steps reads the first k turns alone. -/
theorem run_take (k : Nat) {s t : State} {turns : List Turn} (hk : k ≤ turns.length)
    (h : Host.Core.run Sys2Proof.core k (s.withTurns turns) = .next t) :
    ∃ u, Host.Core.run Sys2Proof.core k (s.withTurns (turns.take k)) = .next u ∧ u.block = t.block := by
  induction k generalizing s turns with
  | zero =>
    have ht : s.withTurns turns = t := Host.Outcome.next.inj h
    exact ⟨s.withTurns [], rfl, by rw [← ht]; rfl⟩
  | succ k ih =>
    cases turns with
    | nil => simp at hk
    | cons turn rest =>
      obtain ⟨s', hstep, hrun⟩ := run_succ_inv h
      have hshort : step (s.withTurns (turn :: rest.take k)) = .next (s'.withTurns (rest.take k)) := by
        rw [step_withTurns s turn rest, hstep]
        rfl
      rw [← withTurns_of_sched (step_next_of_cons (withTurns_sched s (turn :: rest)) hstep).1] at hrun
      obtain ⟨u, hu, hblock⟩ := ih (by simpa using hk) hrun
      exact ⟨u, (run_succ k hshort).trans hu, hblock⟩

/-! ## Fair schedules -/

/-- A schedule that gives the sequencer a turn after every point gives it any number of turns in some initial part. -/
theorem exists_initial_part_of_infinitely_many {sched : Nat → Turn} (h : ∀ n, ∃ k, n ≤ k ∧ sched k = .sequencer) (m : Nat) :
    ∃ n, m ≤ ((List.range n).map sched).countP (· == .sequencer) := by
  induction m with
  | zero => exact ⟨0, Nat.zero_le _⟩
  | succ m ih =>
    obtain ⟨n, hn⟩ := ih
    obtain ⟨k, hk, hsched⟩ := h n
    refine ⟨k + 1, ?_⟩
    have hmono : ((List.range n).map sched).countP (· == .sequencer) ≤
        ((List.range k).map sched).countP (· == .sequencer) :=
      ((List.range_sublist.mpr hk).map sched).countP_le
    rw [List.range_succ, List.map_append, List.countP_append]
    simp only [List.map_cons, List.map_nil, hsched, List.countP_singleton, beq_self_eq_true, if_true]
    omega

/-- Settles O60: were BUSY = 1 throughout, fairness would give the sequencer turns enough to complete the command. -/
theorem fairSchedulesCompleteEveryCommand : Obligations.FairSchedulesCompleteEveryCommand := by
  intro sched s hfair hharmless h _
  by_contra hnever
  have hbusy : ∀ k t, s.along sched k = .next t → t.block.busy = true := fun k t ht => by
    by_contra hb
    exact hnever ⟨k, t, ht, by simpa using hb⟩
  obtain ⟨n, hn⟩ := exists_initial_part_of_infinitely_many (fun n => hfair n fun k t _ => hbusy k t) 16
  have hleft : s.block.leftAtMost (((List.range n).map sched).countP (· == .sequencer)) := fun i _ => by
    have := uprog_length_lt i s.block.mode
    omega
  obtain ⟨k, t, hk, hrun, ht⟩ := completes_of_leftAtMost ((List.range n).map sched)
    (s := s.withTurns ((List.range n).map sched)) rfl h (by simpa using fun k _ => hharmless k) hleft
  obtain ⟨u, hu, hblock⟩ := run_take k hk hrun
  have hinitial : ((List.range n).map sched).take k = (List.range k).map sched := by
    have hkn : k ≤ n := by simpa using hk
    rw [← List.map_take, List.take_range, Nat.min_eq_left hkn]
  rw [hinitial] at hu
  have hcontra := hbusy k u hu
  rw [hblock, ht] at hcontra
  cases hcontra

end Sys2Proof.Machine
end
